-- ==== Sys2Proof/Word.lean ====
section
/-! DEFINITION. The word type of the core (00_scope.md R10: "an unsigned 64-bit integer; the base unit of all
state"). Bit 0 is the least significant bit (R11), as `BitVec` numbers its bits. -/

namespace Sys2Proof

/-- A Word (R10). -/
abbrev Word := BitVec 64

/-- A pair of Words: a Block or a Key, index 0 first (30_encoding.md R58, R59, R62). -/
abbrev Pair := Word × Word

end Sys2Proof
end

