-- ==== Sys2Proof/Syntax.lean ====
section
/-! DEFINITION. The commands (30_encoding.md R53): one constructor per row of spec/opcode_table.json. -/

namespace Sys2Proof

/-- The four commands. A command word names no operand (R56), so no constructor has an argument. -/
inductive Instr where
  /-- KEY_SCHEDULE, `key_schedule(key)` (41_key_schedule.md). -/
  | keySchedule
  /-- ENCRYPT, `encrypt(plaintext, key)` (42_encrypt.md section 1). -/
  | encrypt
  /-- ENCRYPT_KS, `encrypt_ks(plaintext, schedule)` (42_encrypt.md section 2). -/
  | encryptKs
  /-- DECRYPT, `decrypt(ciphertext, schedule)` (43_decrypt.md). -/
  | decrypt
deriving DecidableEq, Repr

end Sys2Proof
end

