-- ==== Sys2Proof/WellFormed.lean ====
section
/-! DEFINITION. Well-formedness. A command has no operand (30_encoding.md R56), so every command is well formed; what can
be ill formed is a number offered as a command word, since CMD "has no other bits" than OP[1:0] (10_state.md R24). -/

namespace Sys2Proof

/-- Every command is well formed: there is no field to check (R54, R56). -/
def Instr.wellFormed : Instr → Bool
  | .keySchedule => true
  | .encrypt => true
  | .encryptKs => true
  | .decrypt => true

/-- A number is a command word when it has no bit above CMD[1:0] (R24, R54). -/
def cmdWordOk (w : Nat) : Bool := w < 4

end Sys2Proof
end

