-- ==== Sys2Proof/Decode.lean ====
section
/-! DEFINITION. The decoder and the encoder of the 2-bit field OP (30_encoding.md R53 to R55). -/

namespace Sys2Proof

/-- Why a number is no command word. -/
inductive DecodeError where
  /-- A bit above CMD[1:0] is set; CMD has no such bit (10_state.md R24; assumption log 13). -/
  | bitsAboveOp
deriving DecidableEq, Repr

/-- The four-row table of R53; total, since "every one of the four values of OP selects a command" (R55). -/
def decode (op : BitVec 2) : Instr :=
  if op = 0b00#2 then .keySchedule
  else if op = 0b01#2 then .encrypt
  else if op = 0b10#2 then .encryptKs
  else .decrypt

/-- The opcode of a command: the same table read the other way (R53). -/
def encode : Instr → BitVec 2
  | .keySchedule => 0b00#2
  | .encrypt => 0b01#2
  | .encryptKs => 0b10#2
  | .decrypt => 0b11#2

/-- Decoding a number offered as a command word: total, refusing by name what does not fit CMD[1:0]. -/
def decodeNat (w : Nat) : Except DecodeError Instr :=
  if cmdWordOk w then .ok (decode (BitVec.ofNat 2 w)) else .error .bitsAboveOp

/-- The command read from a word of the opcode table, numbered as the table numbers it; `nbits` is the row's width in
whole bytes, and the bits above it are 0. -/
def decodeTableWord (nbits w : Nat) : Option Instr :=
  match decodeNat (w % 2 ^ nbits) with
  | .ok i => some i
  | .error _ => none

end Sys2Proof
end

