-- ==== Sys2Proof/Config.lean ====
section
/-! DEFINITION. The constants of 00_scope.md R8 and the one source of free values (93_implementation_defined.md,
"any value (draw)"). -/

namespace Sys2Proof.Config

/-- ROUNDS = SCHED_WORDS (R8). -/
def rounds : Nat := 32

/-- ALPHA, the right-rotation amount of ROUND's first operand (R8). -/
def alpha : Nat := 8

/-- BETA, the left-rotation amount of ROUND's second operand (R8). -/
def beta : Nat := 3

/-- The last index of a forward command and the first of DECRYPT (10_state.md R21). -/
def topIndex : BitVec 5 := 31#5

/-- How many Words the operand space has: 2 + 2 + 2 + 32 (20_memory.md R35). -/
def locations : Nat := 38

/-- FREE VALUES (assumption log 3, 4, 5, 9, 10). The n-th free value the machine takes. It has no body: nothing can be
proved of what it is, so a claim holds for every value. -/
opaque freeWord : Nat → Word

end Sys2Proof.Config
end

