-- ==== Sys2Proof/Machine/State.lean ====
section
/-! DEFINITION. The state of one core instance and of its host's script, and the state after reset
(10_state.md, 20_memory.md section 1, 30_encoding.md section 3). -/

namespace Sys2Proof.Machine

/-- The operand buffers' contents (20_memory.md R35): a list of (location number, Word), location numbers strictly
rising; a location that is not listed has not been written since RESET (assumption log 1, 3). The unit is the Word,
"no smaller unit exists" (R35). -/
abbrev Memory := List (Nat × Word)

/-- A location of the operand space: a buffer and an index that is in range by construction (R35, R38). -/
inductive Loc where
  | key  (i : Fin 2)
  | bin  (i : Fin 2)
  | bout (i : Fin 2)
  | sch  (i : BitVec 5)
deriving DecidableEq, Repr

/-- What a WR line writes (30_encoding.md R64, R65). -/
inductive HostVal where
  /-- A Word written in the line. -/
  | lit (v : Word)
  /-- "(value read from B[i])" (R65, MOVB): what the host's latest read of the location returned. -/
  | readOf (l : Loc)
deriving DecidableEq, Repr

/-- One line of a host script (R64). No line reads CMD or writes STATUS (R24, R25; assumption log 14). -/
inductive ScriptLine where
  /-- `WR B[i], v` (20_memory.md R44). -/
  | wr (l : Loc) (v : HostVal)
  /-- `RD B[i]` (R44). -/
  | rd (l : Loc)
  /-- A write of CMD; `START <mnemonic>` writes that command's opcode (R45). -/
  | cmd (op : BitVec 2)
  /-- One read of STATUS (R46). -/
  | status
  /-- `WAIT`: STATUS is read until BUSY = 0 (R46; assumption log 7). -/
  | wait
  /-- `RESET` (R48). -/
  | reset
  /-- No host move: the core may take a step here ("step x 1" of 95_test_vectors.md section 7). -/
  | pass
deriving DecidableEq, Repr

/-- What one read of the host returned. -/
inductive Seen where
  | word (l : Loc) (v : Word)
  | status (v : BitVec 1)
deriving DecidableEq, Repr

/-- The core has no fault: "Synchronous exceptions: there are none" (60_exceptions.md R120), so nothing raises one and
the type has no constructor (assumption log 18). -/
inductive Fault where
deriving DecidableEq, Repr

/-- Refusals. No meaning of this model ends in one: every command is total (R55, R120). -/
inductive Refusal where
  /-- Raised only by an arm of `exec` whose command had no meaning yet; safe. No arm raises it now. -/
  | notModelled (mnemonic : String)
deriving DecidableEq, Repr

/-- The state. The first eight fields are the spec's (10_state.md R15, R19, R26; R29: that is all the state there is);
the last four are the model's own (INVENTORY.md). -/
structure State where
  /-- W0, W1: the working block pair (R16). -/
  w0 : Word
  w1 : Word
  /-- K0, K1: the working key pair (R17). -/
  k0 : Word
  k1 : Word
  /-- OPR: the latched opcode (R20). -/
  opr : BitVec 2
  /-- RC: the round counter (R21). -/
  rc : BitVec 5
  /-- BUSY (R23). -/
  busy : Bool
  /-- KEY, BIN, BOUT and SCH (R26). -/
  mem : Memory
  /-- MODEL'S OWN: how many free values have been taken (assumption log 4). -/
  draws : Nat
  /-- MODEL'S OWN: words that become free values when the running command ends, because the host wrote a buffer while
  BUSY = 1 (70_reset_and_hazards.md R146; assumption log 9). -/
  disturbed : List Loc
  /-- MODEL'S OWN: the host's moves still to come (assumption log 6). -/
  script : List ScriptLine
  /-- MODEL'S OWN: what the host's reads returned, newest first (assumption log 6). -/
  seen : List Seen
deriving DecidableEq, Repr

/-- The state right after reset. BUSY = 0 and no word written are the spec's (R32, R135); the registers' zeros are
DESIGN CHOICE (assumption log 2), the model's own fields too (4, 6, 9). -/
def State.reset : State where
  w0 := 0#64
  w1 := 0#64
  k0 := 0#64
  k1 := 0#64
  opr := 0#2
  rc := 0#5
  busy := false
  mem := []
  draws := 0
  disturbed := []
  script := []
  seen := []

end Sys2Proof.Machine
end

