-- ==== Sys2Proof/Machine/Ops.lean ====
section
/-! DEFINITION. The named operations over memory, registers and free values. There is no exception to take and none to
return from (60_exceptions.md R120, R124, R125), so there is no operation for either. -/

namespace Sys2Proof.Machine

/-- The model's number of a location: KEY 0, 1; BIN 2, 3; BOUT 4, 5; SCH 6 to 37. The spec numbers none
(20_memory.md R42; assumption log 1). -/
def Loc.addr : Loc → Nat
  | .key i => i.val
  | .bin i => 2 + i.val
  | .bout i => 4 + i.val
  | .sch i => 6 + i.toNat

/-- What is listed at a location number; `none`: not written since RESET. -/
def Memory.find : Memory → Nat → Option Word
  | [], _ => none
  | (b, w) :: m, a => if b = a then some w else Memory.find m a

/-- Replace or insert one Word, keeping location numbers strictly rising. -/
def Memory.put : Memory → Nat → Word → Memory
  | [], a, v => [(a, v)]
  | (b, w) :: m, a, v =>
    if a < b then (a, v) :: (b, w) :: m
    else if a = b then (a, v) :: m
    else (b, w) :: Memory.put m a v

/-- The one canonical form: location numbers strictly rising and inside the operand space (R35). -/
abbrev Memory.wf (m : Memory) : Prop :=
  m.Pairwise (fun c d => c.1 < d.1) ∧ ∀ c ∈ m, c.1 < Config.locations

/-! Named updates of State: every change goes through one of these. -/

def State.setBlock (s : State) (v : Pair) : State := { s with w0 := v.1, w1 := v.2 }
def State.setKeys (s : State) (v : Pair) : State := { s with k0 := v.1, k1 := v.2 }
def State.setOpr (s : State) (op : BitVec 2) : State := { s with opr := op }
def State.setRc (s : State) (i : BitVec 5) : State := { s with rc := i }
def State.setBusy (s : State) (b : Bool) : State := { s with busy := b }
def State.setMem (s : State) (m : Memory) : State := { s with mem := m }
def State.setDraws (s : State) (n : Nat) : State := { s with draws := n }
def State.setDisturbed (s : State) (ls : List Loc) : State := { s with disturbed := ls }
def State.setScript (s : State) (r : List ScriptLine) : State := { s with script := r }
def State.addSeen (s : State) (x : Seen) : State := { s with seen := x :: s.seen }

/-- Take the next free value (assumption log 4). -/
def State.draw (s : State) : Word × State := (Config.freeWord s.draws, s.setDraws (s.draws + 1))

/-- The Word a location holds; `none`: not written since RESET (10_state.md R32). -/
def State.word (s : State) (l : Loc) : Option Word := s.mem.find l.addr

/-- What a MemRead of the location returns now: the Word it holds (20_memory.md R36), or the next free value where it
has not been written (R32, R139; assumption log 3). -/
def State.value (s : State) (l : Loc) : Word := (s.word l).getD (Config.freeWord s.draws)

/-- The state after that MemRead: no side effect (R36) but that a free value is used up where one was taken. -/
def State.afterRead (s : State) (l : Loc) : State :=
  s.setDraws (if (s.word l).isSome then s.draws else s.draws + 1)

/-- MemRead(B, i) (R36). -/
def State.memRead (s : State) (l : Loc) : Word × State := (s.value l, s.afterRead l)

/-- MemWrite(B, i, v) (R37): all 64 bits of one location, no other location. -/
def State.memWrite (s : State) (l : Loc) (v : Word) : State := s.setMem (s.mem.put l.addr v)

/-- A free value is written to a location. -/
def State.drawInto (s : State) (l : Loc) : State :=
  let (v, s1) := s.draw
  s1.memWrite l v

end Sys2Proof.Machine
end

