-- ==== Sys2Proof/Machine/Round.lean ====
section
/-! DEFINITION. The word primitives and the round transformation (40_round.md). Pure functions: no state is read or
written, no flag is set, nothing can be raised. -/

namespace Sys2Proof.Machine

/-- ADD64 (R67): the sum modulo 2^64, carry discarded. -/
def add64 (a b : Word) : Word := a + b

/-- SUB64 (R68): the difference modulo 2^64, borrow discarded. -/
def sub64 (a b : Word) : Word := a - b

/-- XOR64 (R69): bitwise exclusive-or (assumption log 19). -/
def xor64 (a b : Word) : Word := a ^^^ b

/-- ROR64 (R70): rotate right by `r`, 0 < r < 64, from the two logical shifts (assumption log 19). -/
def ror64 (a : Word) (r : Nat) : Word := (a >>> r) ||| (a <<< (64 - r))

/-- ROL64 (R71): rotate left by `r`, 0 < r < 64 (assumption log 19). -/
def rol64 (a : Word) (r : Nat) : Word := (a <<< r) ||| (a >>> (64 - r))

/-- ROUND (R73): the five steps in the order of the rule. -/
def fwdRound (p q k : Word) : Pair :=
  let p1 := ror64 p Config.alpha
  let p2 := add64 p1 q
  let p' := xor64 p2 k
  let q1 := rol64 q Config.beta
  let q' := xor64 q1 p'
  (p', q')

/-- INV_ROUND (R75): the five steps in the order of the rule. -/
def invRound (p q k : Word) : Pair :=
  let q1 := xor64 q p
  let q' := ror64 q1 Config.beta
  let p1 := xor64 p k
  let p2 := sub64 p1 q'
  let p' := rol64 p2 Config.alpha
  (p', q')

/-- `zext_64(RC)` (30_encoding.md R61): the round index as a subkey. -/
def zext64 (i : BitVec 5) : Word := i.setWidth 64

end Sys2Proof.Machine
end

