-- ==== Sys2Proof/Machine/Operands.lean ====
section
/-! DEFINITION. The operand forms of the commands (20_memory.md R43, 30_encoding.md R56 to R61): the loads at START, the
rounds on a working pair, the schedule word at index RC, the write-back. -/

namespace Sys2Proof.Machine

/-- W0 <- MemRead(BIN, 0); W1 <- MemRead(BIN, 1) (R90, R96, R101). -/
def State.loadBlock (s : State) : State :=
  let (a, s1) := s.memRead (.bin 0)
  let (b, s2) := s1.memRead (.bin 1)
  s2.setBlock (a, b)

/-- K0 <- MemRead(KEY, 0); K1 <- MemRead(KEY, 1) (R82, R90). -/
def State.loadKey (s : State) : State :=
  let (a, s1) := s.memRead (.key 0)
  let (b, s2) := s1.memRead (.key 1)
  s2.setKeys (a, b)

/-- (W0, W1) <- ROUND(W0, W1, k) (40_round.md R74; R91, R97). -/
def State.blockRound (s : State) (k : Word) : State := s.setBlock (fwdRound s.w0 s.w1 k)

/-- (W0, W1) <- INV_ROUND(W0, W1, k) (R102). -/
def State.blockInvRound (s : State) (k : Word) : State := s.setBlock (invRound s.w0 s.w1 k)

/-- (K0, K1) <- ROUND(K0, K1, zext_64(RC)): the key advance (R83, R91; subkey R61). -/
def State.keyAdvance (s : State) : State := s.setKeys (fwdRound s.k0 s.k1 (zext64 s.rc))

/-- MemWrite(BOUT, 1, W1); MemWrite(BOUT, 0, W0), in that order (R91, R92, R97, R102, R103). -/
def State.writeBack (s : State) : State := (s.memWrite (.bout 1) s.w1).memWrite (.bout 0) s.w0

end Sys2Proof.Machine
end

