-- ==== Sys2Proof/Machine/Flags.lean ====
section
/-! DEFINITION. BUSY, the only one-bit status (10_state.md R30: no carry, overflow, zero or sign flag), with STATUS, and
the sequencer's share of START and of a step (R21 to R24). -/

namespace Sys2Proof.Machine

/-- What a read of STATUS returns: BUSY in STATUS[0], no other bit (R25). -/
def State.statusWord (s : State) : BitVec 1 := BitVec.ofBool s.busy

/-- The RC a START sets: 31 for DECRYPT, 0 for the others (R21, R24). -/
def firstIndex : Instr → BitVec 5
  | .keySchedule => 0#5
  | .encrypt => 0#5
  | .encryptKs => 0#5
  | .decrypt => Config.topIndex

/-- Is the step at RC the command's last: RC = 0 for DECRYPT, RC = 31 for the others (R22). -/
def State.atLast (s : State) : Bool :=
  if s.opr = encode .decrypt then s.rc = 0#5 else s.rc = Config.topIndex

/-- RC one further along the command: down for DECRYPT, up for the others (R22). -/
def State.nextIndex (s : State) : BitVec 5 :=
  if s.opr = encode .decrypt then s.rc - 1#5 else s.rc + 1#5

/-- START(op) (R24): OPR, RC, the command's loads, then BUSY <- 1, as one transition. -/
def startCommand (i : Instr) (load : State → State) (s : State) : State :=
  (load ((s.setOpr (encode i)).setRc (firstIndex i))).setBusy true

/-- Free values for every word the host's writes during the command left open (70_reset_and_hazards.md R146,
93_implementation_defined.md U4; assumption log 9). -/
def State.drawAll (s : State) (ls : List Loc) : State := ls.foldl State.drawInto s

/-- What a host write to SCH or BOUT while BUSY = 1 leaves when the command ends: "that word, W0, W1 and every word the
running command still has to write, a draw" (U4). Nothing happens where there was no such write. -/
def State.settle (s : State) : State :=
  match s.disturbed with
  | [] => s
  | l :: ls =>
    let s1 := s.drawAll (l :: ls)
    let (a, s2) := s1.draw
    let (b, s3) := s2.draw
    (s3.setBlock (a, b)).setDisturbed []

/-- The end of every step (R22): in the last step BUSY <- 0 and RC stays; in any other RC moves on by one. -/
def State.advance (s : State) : State :=
  if s.atLast then s.settle.setBusy false else s.setRc s.nextIndex

end Sys2Proof.Machine
end

