-- ==== Sys2Proof/Machine/Decrypt.lean ====
section
/-! DEFINITION. DECRYPT (43_decrypt.md). -/

namespace Sys2Proof.Machine

/-- DECRYPT's step action (R102): the inverse round keyed by SCH[RC], then in step 0 the write-back (R103). -/
def decryptStep (s : State) : State :=
  let (k, s1) := s.memRead (.sch s.rc)
  let s2 := s1.blockInvRound k
  if s2.rc = 0#5 then s2.writeBack else s2

/-- DECRYPT: START (R24, R101) while BUSY = 0, a step (R22, R102) while BUSY = 1 (assumption log 11). -/
def execDecrypt (s : State) : Host.Outcome State Fault Refusal :=
  .next (if s.busy then (decryptStep s).advance else startCommand .decrypt State.loadBlock s)

end Sys2Proof.Machine
end

