-- ==== Sys2Proof/Machine/Encrypt.lean ====
section
/-! DEFINITION. ENCRYPT and ENCRYPT_KS (42_encrypt.md). -/

namespace Sys2Proof.Machine

/-- ENCRYPT's step action (R91): the block round keyed by the current K1, then the key advance, in step 31 too (R94),
then in step 31 the write-back. -/
def encryptStep (s : State) : State :=
  let s1 := s.blockRound s.k1
  let s2 := s1.keyAdvance
  if s2.rc = Config.topIndex then s2.writeBack else s2

/-- ENCRYPT_KS's step action (R97): the block round keyed by SCH[RC], then in step 31 the write-back. -/
def encryptKsStep (s : State) : State :=
  let (k, s1) := s.memRead (.sch s.rc)
  let s2 := s1.blockRound k
  if s2.rc = Config.topIndex then s2.writeBack else s2

/-- ENCRYPT: START (R24, R90) while BUSY = 0, a step (R22, R91) while BUSY = 1 (assumption log 11). -/
def execEncrypt (s : State) : Host.Outcome State Fault Refusal :=
  .next (if s.busy then (encryptStep s).advance
    else startCommand .encrypt (fun t => t.loadBlock.loadKey) s)

/-- ENCRYPT_KS: START (R24, R96) while BUSY = 0, a step (R22, R97) while BUSY = 1 (assumption log 11). -/
def execEncryptKs (s : State) : Host.Outcome State Fault Refusal :=
  .next (if s.busy then (encryptKsStep s).advance else startCommand .encryptKs State.loadBlock s)

end Sys2Proof.Machine
end

