-- ==== Sys2Proof/Machine/KeySchedule.lean ====
section
/-! DEFINITION. KEY_SCHEDULE (41_key_schedule.md). -/

namespace Sys2Proof.Machine

/-- The step action at index i = RC (R83): record K1 as SCH[i], then advance the key pair if i < 31. -/
def keyScheduleStep (s : State) : State :=
  let s1 := s.memWrite (.sch s.rc) s.k1
  if s1.rc.toNat < 31 then s1.keyAdvance else s1

/-- KEY_SCHEDULE: START (R24, R82) while BUSY = 0, a step (R22, R83) while BUSY = 1 (assumption log 11). -/
def execKeySchedule (s : State) : Host.Outcome State Fault Refusal :=
  .next (if s.busy then (keyScheduleStep s).advance else startCommand .keySchedule State.loadKey s)

end Sys2Proof.Machine
end

