-- ==== Sys2Proof/Machine/Dispatch.lean ====
section
/-! DEFINITION. One arm per command: its START while BUSY = 0, its step while BUSY = 1 (10_state.md R22, R24). -/

namespace Sys2Proof.Machine

def exec (i : Instr) (s : State) : Host.Outcome State Fault Refusal :=
  match i with
  | .keySchedule => Sys2Proof.Machine.execKeySchedule s
  | .encrypt => Sys2Proof.Machine.execEncrypt s
  | .encryptKs => Sys2Proof.Machine.execEncryptKs s
  | .decrypt => Sys2Proof.Machine.execDecrypt s

end Sys2Proof.Machine
end

