-- ==== Sys2Proof/Machine/Sequencer.lean ====
section
/-! DEFINITION. The two agents: the sequencer's step (10_state.md R22) and the host's moves (20_memory.md R44 to R48,
30_encoding.md R64), one transition each. -/

namespace Sys2Proof.Machine

/-- The sequencer (R22, R23): enabled exactly when BUSY = 1, it performs a step of the command in OPR; while BUSY = 0
nothing changes. -/
def coreStep (s : State) : Host.Outcome State Fault Refusal :=
  if s.busy then exec (decode s.opr) s else .next s

/-- The host writes CMD (R24): START of the decoded command if BUSY = 0, ignored if BUSY = 1. -/
def hostCmd (op : BitVec 2) (s : State) : Host.Outcome State Fault Refusal :=
  if s.busy then .next s else exec (decode op) s

/-- The words the running command still has to write (20_memory.md R43): SCH[RC] to SCH[31] for KEY_SCHEDULE, both words
of BOUT for the others. -/
def State.stillToWrite (s : State) : List Loc :=
  match decode s.opr with
  | .keySchedule =>
    ((List.range 32).filter (fun i => s.rc.toNat ≤ i)).map (fun i => .sch (BitVec.ofNat 5 i))
  | .encrypt => [.bout 1, .bout 0]
  | .encryptKs => [.bout 1, .bout 0]
  | .decrypt => [.bout 1, .bout 0]

/-- A host write to SCH or BOUT while BUSY = 1, which the host "must not" make and the core does not check (R47, R146):
the word becomes a free value, and so, when the command ends, do it, W0, W1 and every word still to be written (U4;
assumption log 9). -/
def State.disturb (s : State) (l : Loc) : State :=
  (s.drawInto l).setDisturbed (s.disturbed ∪ (l :: s.stillToWrite))

/-- The newest Word the host has read from a location. -/
def newestRead (l : Loc) : List Seen → Option Word
  | [] => none
  | .word l' v :: xs => if l' = l then some v else newestRead l xs
  | .status _ :: xs => newestRead l xs

/-- The Word a WR line writes; a value "read from" a location the host never read is a free value (assumption log 10). -/
def State.hostVal (s : State) : HostVal → Word × State
  | .lit v => (v, s)
  | .readOf l =>
    match newestRead l s.seen with
    | some v => (v, s)
    | none => s.draw

/-- A write that lands on a location: while BUSY = 0 MemWrite (R44); while BUSY = 1 MemWrite for KEY and BIN, whose
change "would not affect the command in progress" (R51), and `disturb` for BOUT and SCH (R146). -/
def State.hostPut (s : State) (l : Loc) (v : Word) : State :=
  if s.busy then
    match l with
    | .key _ => s.memWrite l v
    | .bin _ => s.memWrite l v
    | .bout _ => s.disturb l
    | .sch _ => s.disturb l
  else s.memWrite l v

/-- `WR B[i], v`. -/
def hostWrite (l : Loc) (v : HostVal) (s : State) : State :=
  let (x, s1) := s.hostVal v
  s1.hostPut l x

/-- `RD B[i]`: MemRead while BUSY = 0 (R44); while BUSY = 1 the value returned is free (R146, U4). -/
def hostRead (l : Loc) (s : State) : State :=
  let (x, s1) := if s.busy then s.draw else s.memRead l
  s1.addSeen (.word l x)

/-- One read of STATUS: returns BUSY, no side effect on the core (R25). -/
def hostStatus (s : State) : State := s.addSeen (.status s.statusWord)

/-- RESET (70_reset_and_hazards.md R135 to R137): BUSY <- 0; every hidden register is a free value and every buffer word
unwritten. The host keeps its script and what it has seen (assumption log 5). -/
def hostReset (s : State) : State :=
  let free (k : Nat) : Word := Config.freeWord (s.draws + k)
  let s1 := (s.setDraws (s.draws + 6)).setBlock (free 0, free 1)
  let s2 := (s1.setKeys (free 2, free 3)).setOpr ((free 4).setWidth 2)
  let s3 := s2.setRc ((free 5).setWidth 5)
  ((s3.setMem []).setDisturbed []).setBusy false

/-- One transition: the script's next line, or the sequencer where the host has no move (R23, R151; assumption log 6, 8).
A WAIT line polls: while BUSY = 1 the core steps under it, and the poll that reads BUSY = 0 ends it (assumption log 7). -/
def runLine (s : State) : Host.Outcome State Fault Refusal :=
  match s.script with
  | [] => coreStep s
  | .pass :: r => coreStep (s.setScript r)
  | .wait :: r => if s.busy then coreStep s else .next (hostStatus (s.setScript r))
  | .cmd op :: r => hostCmd op (s.setScript r)
  | .status :: r => .next (hostStatus (s.setScript r))
  | .wr l v :: r => .next (hostWrite l v (s.setScript r))
  | .rd l :: r => .next (hostRead l (s.setScript r))
  | .reset :: r => .next (hostReset (s.setScript r))

/-- The state in which the host is about to write CMD = op and the core will take it: the line stands first and BUSY = 0
(assumption log 12). -/
def State.withCmd (s : State) (op : BitVec 2) : State :=
  ((s.setScript (.cmd op :: s.script)).setBusy false).setDisturbed []

end Sys2Proof.Machine
end

