-- ==== Sys2Proof/Machine/Step.lean ====
section
/-! DEFINITION. The step of the machine: one host move or one step of the core (Machine/Sequencer.lean). -/

namespace Sys2Proof.Machine

/-- One transition of the core and its host. -/
def step (s : State) : Host.Outcome State Fault Refusal := runLine s

/-- The command word is put where the next command word is taken from: the host's next line writes it to CMD
(assumption log 12). A number that is no command word is not placed. -/
def State.withFetchWord (s : State) (nbits w : Nat) : State :=
  match decodeTableWord nbits w with
  | some i => s.withCmd (encode i)
  | none => s

end Sys2Proof.Machine
end

