-- ==== Sys2Proof/Machine/HostScript.lean ====
section
/-! DEFINITION. The pseudo-lines of host scripts and their expansions (30_encoding.md R65). -/

namespace Sys2Proof.Machine

/-- `START <mnemonic>`: write that command's opcode to CMD (R64). -/
def startLine (i : Instr) : ScriptLine := .cmd (encode i)

/-- `LOADK v0, v1`. -/
def loadk (v : Pair) : List ScriptLine := [.wr (.key 0) (.lit v.1), .wr (.key 1) (.lit v.2)]

/-- `LOADB v0, v1`. -/
def loadb (v : Pair) : List ScriptLine := [.wr (.bin 0) (.lit v.1), .wr (.bin 1) (.lit v.2)]

/-- `RUN <mnemonic>`. -/
def runLines (i : Instr) : List ScriptLine := [startLine i, .wait]

/-- `MOVB`: read BOUT and write what was read to BIN. -/
def movb : List ScriptLine :=
  [.rd (.bout 0), .rd (.bout 1), .wr (.bin 0) (.readOf (.bout 0)), .wr (.bin 1) (.readOf (.bout 1))]

/-- `LOADS v0, ..., v31`. -/
def loads (v : BitVec 5 → Word) : List ScriptLine :=
  (List.range 32).map (fun i => .wr (.sch (BitVec.ofNat 5 i)) (.lit (v (BitVec.ofNat 5 i))))

end Sys2Proof.Machine
end

