-- ==== Sys2Proof/Machine/FunctionForm.lean ====
section
/-! DEFINITION. The commands as functions of their operands (R84, R93, R98, R104; the names of 44_laws.md R106). -/

namespace Sys2Proof.Machine

/-- A RoundKeySchedule (30_encoding.md R60): exactly 32 Words, element i at index i. -/
abbrev Schedule := BitVec 5 → Word

/-- The key sequence (A_i, B_i) of R84, with the one more term of R93. -/
def keySeq (key : Pair) : Nat → Pair
  | 0 => key
  | i + 1 => fwdRound (keySeq key i).1 (keySeq key i).2 (zext64 (BitVec.ofNat 5 i))

/-- (U_i, V_i) of R98: the first i block rounds under the schedule. -/
def encSeq (pt : Pair) (sch : Schedule) : Nat → Pair
  | 0 => pt
  | i + 1 => fwdRound (encSeq pt sch i).1 (encSeq pt sch i).2 (sch (BitVec.ofNat 5 i))

/-- (U_{32-n}, V_{32-n}) of R104: the first n inverse rounds, SCH[31] first. -/
def decSeq (ct : Pair) (sch : Schedule) : Nat → Pair
  | 0 => ct
  | n + 1 => invRound (decSeq ct sch n).1 (decSeq ct sch n).2 (sch (BitVec.ofNat 5 (31 - n)))

/-- ks(K): the 32 words KEY_SCHEDULE leaves in SCH, B_i (R84, R106). -/
def ks (key : Pair) : Schedule := fun i => (keySeq key i.toNat).2

/-- enc_ks(P, S): what ENCRYPT_KS leaves in BOUT (R98, R106). -/
def encKs (pt : Pair) (sch : Schedule) : Pair := encSeq pt sch Config.rounds

/-- ENCRYPT's loop state after i iterations: the block pair and the key pair (R93, the loop in the source's names). -/
def encLoop (pt key : Pair) : Nat → Pair × Pair
  | 0 => (pt, key)
  | i + 1 =>
    let (b, k) := encLoop pt key i
    (fwdRound b.1 b.2 k.2, fwdRound k.1 k.2 (zext64 (BitVec.ofNat 5 i)))

/-- enc(P, K): what ENCRYPT leaves in BOUT (R93, R106). -/
def enc (pt key : Pair) : Pair := (encLoop pt key Config.rounds).1

/-- dec(C, S): what DECRYPT leaves in BOUT (R104, R106). -/
def dec (ct : Pair) (sch : Schedule) : Pair := decSeq ct sch Config.rounds

end Sys2Proof.Machine
end

