-- ==== Sys2Proof/Safety.lean ====
section
/-! DEFINITION. What a host must do for a command's result to mean something (70_reset_and_hazards.md R139, R146, R147;
the core checks none of it, 60_exceptions.md R121), the invariant of the machine, and the terms the claims use. -/

namespace Sys2Proof.Safety

open Sys2Proof.Machine

/-- Every index of SCH. -/
def schedule : List Loc := (List.range 32).map (fun i => .sch (BitVec.ofNat 5 i))

/-- The words a command reads, which must have been written before its START (R139). -/
def reads : Instr → List Loc
  | .keySchedule => [.key 0, .key 1]
  | .encrypt => [.key 0, .key 1, .bin 0, .bin 1]
  | .encryptKs => [.bin 0, .bin 1] ++ schedule
  | .decrypt => [.bin 0, .bin 1] ++ schedule

/-- The designated outputs of a command, the only words it changes (10_state.md R27). -/
def outputs : Instr → List Loc
  | .keySchedule => schedule
  | .encrypt => [.bout 0, .bout 1]
  | .encryptKs => [.bout 0, .bout 1]
  | .decrypt => [.bout 0, .bout 1]

/-- The location has been written since the last RESET. -/
def written (s : State) (l : Loc) : Bool := (s.word l).isSome

/-- The host's next line keeps its duties: no buffer access and no START while BUSY = 1 (R47, R146, R147), and a START
only when every word the command reads has been written (R139). STATUS, WAIT and RESET are always allowed (R46, R48). -/
def lineOk (s : State) : ScriptLine → Bool
  | .wr _ _ => !s.busy
  | .rd _ => !s.busy
  | .cmd op => !s.busy && (reads (decode op)).all (written s)
  | .status => true
  | .wait => true
  | .reset => true
  | .pass => true

/-- The state's next line, if there is one, keeps the host's duties. -/
def hostOk (s : State) : Bool :=
  match s.script with
  | [] => true
  | x :: _ => lineOk s x

/-- The line asks for no value the spec leaves open: it is no RESET, no read of an unwritten word, and no write of a
value that was never read. -/
def lineKnown (s : State) : ScriptLine → Bool
  | .wr _ (.readOf l) => (newestRead l s.seen).isSome
  | .wr _ (.lit _) => true
  | .rd l => written s l
  | .cmd _ => true
  | .status => true
  | .wait => true
  | .reset => false
  | .pass => true

/-- The state's next line, if there is one, asks for no value the spec leaves open. -/
def hostKnown (s : State) : Bool :=
  match s.script with
  | [] => true
  | x :: _ => lineKnown s x

/-- No host write has disturbed the running command, and every word it may still read is written: ENCRYPT_KS and DECRYPT
read SCH in their steps (20_memory.md R43). -/
def runningOk (s : State) : Bool :=
  s.disturbed.isEmpty && (!s.busy ||
    match decode s.opr with
    | .keySchedule => true
    | .encrypt => true
    | .encryptKs => schedule.all (written s)
    | .decrypt => schedule.all (written s))

/-- KEY and BIN, which the core never changes (10_state.md R27). -/
def isInput : Loc → Bool
  | .key _ => true
  | .bin _ => true
  | .bout _ => false
  | .sch _ => false

/-- The invariant of the machine: the buffers keep their canonical form (R35); nothing is left open for the end of a
command while no command runs, and what is left open is never a word of KEY or BIN (assumption log 9). -/
abbrev MachineInv (s : State) : Prop :=
  s.mem.wf ∧ (s.busy = false → s.disturbed = []) ∧ ∀ l ∈ s.disturbed, isInput l = false

/-- The Word a WR line stands for is `x`: the one written in it, or the one the host last read (30_encoding.md R65);
nothing is said where the host never read the location (assumption log 10). -/
abbrev StandsFor (s : State) (v : HostVal) (x : Word) : Prop :=
  (∀ a, v = .lit a → x = a) ∧ ∀ l a, v = .readOf l → newestRead l s.seen = some a → x = a

/-- `n` transitions of the machine, as the host's interface runs it. -/
def runFor (n : Nat) (s : State) : Host.Outcome State Fault Refusal := Sys2Proof.core.run n s

/-- The command as a whole (44_laws.md R106): its START, then 32 transitions of the machine. -/
def runCommand (i : Instr) (s : State) : Host.Outcome State Fault Refusal :=
  match exec i s with
  | .next t => runFor 32 t
  | .fault r => .fault r
  | .refused r => .refused r

/-- Idle, with no host move due: the state in which R106 takes a command up. -/
abbrev Idle (s : State) : Prop := s.busy = false ∧ s.disturbed = [] ∧ s.script = []

/-- Both words of the pair are written: `KEY`, `BIN` or `BOUT` holds it. -/
abbrev HoldsKey (s : State) (v : Pair) : Prop := s.word (.key 0) = some v.1 ∧ s.word (.key 1) = some v.2
abbrev HoldsBin (s : State) (v : Pair) : Prop := s.word (.bin 0) = some v.1 ∧ s.word (.bin 1) = some v.2
abbrev HoldsBout (s : State) (v : Pair) : Prop := s.word (.bout 0) = some v.1 ∧ s.word (.bout 1) = some v.2

/-- SCH holds the schedule. -/
abbrev HoldsSch (s : State) (v : Schedule) : Prop := ∀ i, s.word (.sch i) = some (v i)

/-! Frames: what two states have in common. -/

abbrev sameBlock (s t : State) : Prop := t.w0 = s.w0 ∧ t.w1 = s.w1
abbrev sameKeys (s t : State) : Prop := t.k0 = s.k0 ∧ t.k1 = s.k1
abbrev sameHost (s t : State) : Prop := t.script = s.script ∧ t.seen = s.seen
abbrev sameSequencer (s t : State) : Prop := t.opr = s.opr ∧ t.rc = s.rc ∧ t.busy = s.busy

/-- Every buffer word reads as before, but for the listed ones. -/
abbrev sameWords (s t : State) (but : List Loc) : Prop := ∀ l, l ∉ but → t.word l = s.word l

end Sys2Proof.Safety
end

