-- ==== Sys2Proof/Certificates/Slice0/Obligations.lean ====
section
/-! DEFINITION. The statements for the provers, in the order of OBLIGATIONS.json. Each docstring names the rule of spec/
it formalises; "model's choice" marks a clause that rests on an assumption log entry. -/

open Sys2Proof Sys2Proof.Machine Sys2Proof.Safety

/-! ### Word primitives (40_round.md section 1) -/

/-- R67: ADD64 is the sum modulo 2^64, commutative and associative, with the rule's corner cases and example. -/
def Obligations.Add64IsSumModulo : Prop :=
  (∀ a b, (add64 a b).toNat = (a.toNat + b.toNat) % 2 ^ 64) ∧
  (∀ a b, add64 a b = add64 b a) ∧ (∀ a b c, add64 (add64 a b) c = add64 a (add64 b c)) ∧
  (∀ a, add64 a 0 = a) ∧ add64 0xffffffffffffffff 1 = 0 ∧
  add64 0xffffffffffffffff 0xffffffffffffffff = 0xfffffffffffffffe ∧
  add64 0x8000000000000000 0x8000000000000000 = 0 ∧
  add64 0x206c617669757165 0x7469206564616d20 = 0x94d581dbcdd6de85

/-- R68: SUB64 is the difference modulo 2^64 and undoes ADD64, with the rule's corner cases and example. -/
def Obligations.Sub64IsDifferenceModulo : Prop :=
  (∀ a b : Word, b.toNat ≤ a.toNat → (sub64 a b).toNat = a.toNat - b.toNat) ∧
  (∀ a b : Word, a.toNat < b.toNat → (sub64 a b).toNat = a.toNat + 2 ^ 64 - b.toNat) ∧
  (∀ a b, sub64 (add64 a b) b = a) ∧ (∀ a b, add64 (sub64 a b) b = a) ∧
  (∀ a, sub64 a 0 = a) ∧ (∀ a, sub64 a a = 0) ∧ sub64 0 1 = 0xffffffffffffffff ∧
  sub64 0x0000000000000001 0x2000000000000000 = 0xe000000000000001 ∧
  sub64 0x87c45021a2f6fb5a 0xbbc7acd1c4a5e7ef = 0xcbfca34fde51136b

/-- R69: XOR64 works bit by bit; its laws, corner cases and example. -/
def Obligations.Xor64IsBitwise : Prop :=
  (∀ a b, ∀ n < 64, (xor64 a b).getLsbD n = (a.getLsbD n != b.getLsbD n)) ∧
  (∀ a b, xor64 a b = xor64 b a) ∧ (∀ a b c, xor64 (xor64 a b) c = xor64 a (xor64 b c)) ∧
  (∀ a b, xor64 (xor64 a b) b = a) ∧ (∀ a, xor64 a 0 = a) ∧ (∀ a, xor64 a a = 0) ∧
  (∀ a, xor64 a 0xffffffffffffffff = ~~~a) ∧
  xor64 0x94d581dbcdd6de85 0x0706050403020100 = 0x93d384dfced4df85

/-- R70: bit n of ROR64(a, r) is bit (n + r) mod 64 of a; equivalently the two shifts; with the rule's corner cases. -/
def Obligations.Ror64RotatesRight : Prop :=
  (∀ a r, 0 < r → r < 64 → ∀ n < 64, (ror64 a r).getLsbD n = a.getLsbD ((n + r) % 64)) ∧
  (∀ a r, 0 < r → r < 64 →
    (ror64 a r).toNat = (a.toNat >>> r ||| a.toNat <<< (64 - r)) % 2 ^ 64 ∧
    (ror64 a r).toNat = (a.toNat % 2 ^ r) * 2 ^ (64 - r) + a.toNat / 2 ^ r) ∧
  ror64 0x0000000000000001 8 = 0x0100000000000000 ∧ ror64 0x0000000000000100 8 = 0x0000000000000001 ∧
  ror64 0x00000000000000ff 8 = 0xff00000000000000 ∧ ror64 0 8 = 0 ∧
  ror64 0xffffffffffffffff 8 = 0xffffffffffffffff ∧
  ror64 0x6c61766975716520 8 = 0x206c617669757165 ∧ ror64 0x0000000000000001 3 = 0x2000000000000000

/-- R71: bit n of ROL64(a, r) is bit (n - r) mod 64 of a; equivalently the two shifts; with the rule's corner cases. -/
def Obligations.Rol64RotatesLeft : Prop :=
  (∀ a r, 0 < r → r < 64 → ∀ n < 64, (rol64 a r).getLsbD n = a.getLsbD ((n + 64 - r) % 64)) ∧
  (∀ a r, 0 < r → r < 64 →
    (rol64 a r).toNat = (a.toNat <<< r ||| a.toNat >>> (64 - r)) % 2 ^ 64 ∧
    (rol64 a r).toNat = (a.toNat % 2 ^ (64 - r)) * 2 ^ r + a.toNat / 2 ^ (64 - r)) ∧
  rol64 0x0000000000000001 3 = 0x0000000000000008 ∧ rol64 0x2000000000000000 3 = 0x0000000000000001 ∧
  rol64 0xe000000000000000 3 = 0x0000000000000007 ∧ rol64 0x8000000000000000 8 = 0x0000000000000080 ∧
  rol64 0x7469206564616d20 3 = 0xa349032b230b6903 ∧ rol64 0x0123456789abcdef 8 = 0x23456789abcdef01

/-- R72: rotations undo each other, SUB64 undoes ADD64, XOR64 undoes itself; a rotation does not distribute over ADD64. -/
def Obligations.PrimitivesUndoEachOther : Prop :=
  (∀ a r, 0 < r → r < 64 → rol64 (ror64 a r) r = a ∧ ror64 (rol64 a r) r = a) ∧
  (∀ a b, sub64 (add64 a b) b = a) ∧ (∀ a b, xor64 (xor64 a b) b = a) ∧
  (∃ a b, ror64 (add64 a b) 8 ≠ add64 (ror64 a 8) (ror64 b 8)) ∧
  (∃ a b c, xor64 (add64 a b) c ≠ add64 (xor64 a c) b)

/-! ### The round transformation (40_round.md sections 2 and 3) -/

/-- R74: ROUND in closed form; a pair is updated from its old values. -/
def Obligations.RoundClosedForm : Prop :=
  (∀ p q k, (fwdRound p q k).1 = xor64 (add64 (ror64 p 8) q) k ∧
    (fwdRound p q k).2 = xor64 (rol64 q 3) (fwdRound p q k).1) ∧
  (∀ (s : State) k, ((s.blockRound k).w0, (s.blockRound k).w1) = fwdRound s.w0 s.w1 k) ∧
  (∀ s : State, (s.keyAdvance.k0, s.keyAdvance.k1) = fwdRound s.k0 s.k1 (zext64 s.rc))

/-- R76: INV_ROUND in closed form. -/
def Obligations.InvRoundClosedForm : Prop :=
  ∀ p q k, (invRound p q k).2 = ror64 (xor64 q p) 3 ∧
    (invRound p q k).1 = rol64 (sub64 (xor64 p k) (invRound p q k).2) 8

/-- R77: INV_ROUND undoes ROUND with the same subkey, for all Words. -/
def Obligations.InvRoundUndoesRound : Prop :=
  ∀ p q k, invRound (fwdRound p q k).1 (fwdRound p q k).2 k = (p, q)

/-- R80: for a fixed subkey ROUND is a bijection on pairs, INV_ROUND its inverse in both directions. -/
def Obligations.RoundIsBijective : Prop :=
  ∀ k, Function.Bijective (fun v : Pair => fwdRound v.1 v.2 k) ∧
    Function.LeftInverse (fun v : Pair => invRound v.1 v.2 k) (fun v : Pair => fwdRound v.1 v.2 k) ∧
    Function.RightInverse (fun v : Pair => invRound v.1 v.2 k) (fun v : Pair => fwdRound v.1 v.2 k)

/-! ### Encoding (30_encoding.md) -/

/-- R53: the four rows of the command table, read by the decoder and by the table's word. -/
def Obligations.CommandTableDecodes : Prop :=
  decode 0b00#2 = .keySchedule ∧ decode 0b01#2 = .encrypt ∧ decode 0b10#2 = .encryptKs ∧ decode 0b11#2 = .decrypt ∧
  decodeTableWord 8 0 = some .keySchedule ∧ decodeTableWord 8 1 = some .encrypt ∧
  decodeTableWord 8 2 = some .encryptKs ∧ decodeTableWord 8 3 = some .decrypt

/-- R53, R55: decode and encode are inverse to each other on all commands and all four opcodes; model's choice (log 13):
a number is a command word exactly when it has no bit above CMD[1:0]. -/
def Obligations.DecodeEncodeAgree : Prop :=
  (∀ i, decode (encode i) = i) ∧ (∀ op, encode (decode op) = op) ∧
  (∀ i, decodeNat (encode i).toNat = .ok i) ∧
  (∀ w i, decodeNat w = .ok i ↔ w = (encode i).toNat) ∧
  (∀ w, decodeNat w = .error .bitsAboveOp ↔ 4 ≤ w)

/-! ### The buffers (20_memory.md) -/

/-- R36, R37: MemWrite replaces the Word at one location and changes no other; MemRead returns what is held, with no side
effect, any number of times. -/
def Obligations.MemReadReturnsLatestMemWrite : Prop :=
  (∀ (s : State) l v, (s.memWrite l v).memRead l = (v, s.memWrite l v)) ∧
  (∀ (s : State) l l' v, l' ≠ l → (s.memWrite l v).word l' = s.word l') ∧
  (∀ (s : State) l v, s.word l = some v → s.memRead l = (v, s)) ∧
  (∀ (s : State) l v, (s.memWrite l v) = { s with mem := (s.memWrite l v).mem })

/-- R35 (locations: no two share a name); model's choice (log 1): one canonical form, so that equal contents are equal
data, and every write keeps it. -/
def Obligations.BuffersHaveOneForm : Prop :=
  (∀ l l' : Loc, l.addr = l'.addr → l = l') ∧
  (∀ (s : State) l v, s.mem.wf → (s.memWrite l v).mem.wf) ∧
  (∀ m m' : Memory, m.wf → m'.wf → (∀ a, m.find a = m'.find a) → m = m')

/-! ### Reset (70_reset_and_hazards.md section 1) -/

/-- R32: after reset BUSY = 0, STATUS reads 0 and no buffer word is written (the registers' zeros, log 2, are not
claimed). -/
def Obligations.ResetStateIsIdle : Prop :=
  State.reset.busy = false ∧ State.reset.statusWord = 0#1 ∧ ∀ l, State.reset.word l = none

/-- The reset state meets the machine's invariant (20_memory.md R35; log 1, 9). -/
def Obligations.ResetStateMeetsInvariant : Prop := MachineInv State.reset

/-- R135, R137: a RESET, whatever runs, clears BUSY at once and leaves no buffer word defined; the core then does nothing
until the host moves. Model's choice (log 5): the host keeps its script and what it saw. -/
def Obligations.ResetEndsCommand : Prop :=
  ∀ (s : State) r, s.script = .reset :: r → ∃ t, step s = .next t ∧ t.busy = false ∧ t.statusWord = 0#1 ∧
    (∀ l, t.word l = none) ∧ t.disturbed = [] ∧ t.script = r ∧ t.seen = s.seen ∧
    (r = [] → ∀ n, runFor n t = .next t)

/-! ### The two agents (10_state.md R22 to R25) -/

/-- R22, R24: the sequencer's step runs the command decoded from OPR; a CMD write while BUSY = 0 runs the command decoded
from the written word. Model's choice: exec as one transition of a command (log 11), the pass line (log 6), and under WAIT
the core's step with the line left standing (log 7); that the core steps where no host move is due is deduced (log 8). -/
def Obligations.StepRunsDecodedCommand : Prop :=
  (∀ s : State, s.busy = true → s.script = [] → step s = exec (decode s.opr) s) ∧
  (∀ (s : State) r, s.busy = true → s.script = .pass :: r → step s = exec (decode s.opr) (s.setScript r)) ∧
  (∀ (s : State) r, s.busy = true → s.script = .wait :: r → step s = exec (decode s.opr) s) ∧
  (∀ (s : State) op r, s.busy = false → s.script = .cmd op :: r → step s = exec (decode op) (s.setScript r))

/-- The fetch interface (log 12): the very next step after placing a command's word is that command's START. -/
def Obligations.PlacedWordRunsNext : Prop :=
  ∀ (s : State) i, step (s.withFetchWord 8 (encode i).toNat) = exec i ((s.setBusy false).setDisturbed [])

/-- R24, R147: a CMD write while BUSY = 1 is ignored, whatever its value. -/
def Obligations.CmdWriteWhileBusyIsIgnored : Prop :=
  ∀ (s : State) op r, s.busy = true → s.script = .cmd op :: r → step s = .next (s.setScript r)

/-- R25: a read of STATUS returns BUSY at any time and has no side effect on the core. -/
def Obligations.StatusReadReturnsBusy : Prop :=
  ∀ (s : State) r, s.script = .status :: r →
    step s = .next ((s.setScript r).addSeen (.status (if s.busy then 1#1 else 0#1)))

/-- R23: while BUSY = 0 and the host makes no move, nothing changes. -/
def Obligations.IdleCoreChangesNothing : Prop :=
  (∀ s : State, s.busy = false → s.script = [] → step s = .next s) ∧
  (∀ (s : State) r, s.busy = false → s.script = .pass :: r → step s = .next (s.setScript r))

/-- R120, R55: nothing faults and nothing is refused: every state has a next state. -/
def Obligations.EveryStateSteps : Prop :=
  (∀ s : State, ∃ t, step s = .next t) ∧ ∀ i s, ∃ t, exec i s = .next t

/-! ### START of each command (R24 with R82, R90, R96, R101) -/

/-- R82: START of KEY_SCHEDULE from every idle state. A word not written is a free value (log 3), of which nothing is
said. -/
def Obligations.KeyScheduleStart : Prop :=
  ∀ s : State, s.busy = false → ∃ t, exec .keySchedule s = .next t ∧
    t.busy = true ∧ t.opr = 0b00#2 ∧ t.rc = 0#5 ∧
    (∀ v, s.word (.key 0) = some v → t.k0 = v) ∧ (∀ v, s.word (.key 1) = some v → t.k1 = v) ∧
    sameBlock s t ∧ sameWords s t [] ∧ sameHost s t ∧ t.disturbed = s.disturbed

/-- R90: START of ENCRYPT from every idle state. -/
def Obligations.EncryptStart : Prop :=
  ∀ s : State, s.busy = false → ∃ t, exec .encrypt s = .next t ∧
    t.busy = true ∧ t.opr = 0b01#2 ∧ t.rc = 0#5 ∧
    (∀ v, s.word (.bin 0) = some v → t.w0 = v) ∧ (∀ v, s.word (.bin 1) = some v → t.w1 = v) ∧
    (∀ v, s.word (.key 0) = some v → t.k0 = v) ∧ (∀ v, s.word (.key 1) = some v → t.k1 = v) ∧
    sameWords s t [] ∧ sameHost s t ∧ t.disturbed = s.disturbed

/-- R96: START of ENCRYPT_KS from every idle state. -/
def Obligations.EncryptKsStart : Prop :=
  ∀ s : State, s.busy = false → ∃ t, exec .encryptKs s = .next t ∧
    t.busy = true ∧ t.opr = 0b10#2 ∧ t.rc = 0#5 ∧
    (∀ v, s.word (.bin 0) = some v → t.w0 = v) ∧ (∀ v, s.word (.bin 1) = some v → t.w1 = v) ∧
    sameKeys s t ∧ sameWords s t [] ∧ sameHost s t ∧ t.disturbed = s.disturbed

/-- R101: START of DECRYPT from every idle state. -/
def Obligations.DecryptStart : Prop :=
  ∀ s : State, s.busy = false → ∃ t, exec .decrypt s = .next t ∧
    t.busy = true ∧ t.opr = 0b11#2 ∧ t.rc = 31#5 ∧
    (∀ v, s.word (.bin 0) = some v → t.w0 = v) ∧ (∀ v, s.word (.bin 1) = some v → t.w1 = v) ∧
    sameKeys s t ∧ sameWords s t [] ∧ sameHost s t ∧ t.disturbed = s.disturbed

/-! ### One step of each command (R22 with R83, R91, R97, R102) -/

/-- R83 with R22: a step of KEY_SCHEDULE at every index: what it writes, what it leaves alone. (The last step of a command
the host disturbed is `DisturbedCommandEnds`.) -/
def Obligations.KeyScheduleStep : Prop :=
  ∀ s : State, s.busy = true → s.opr = 0b00#2 → (s.rc = 31#5 → s.disturbed = []) →
    ∃ t, exec .keySchedule s = .next t ∧
      t.word (.sch s.rc) = some s.k1 ∧ sameWords s t [.sch s.rc] ∧
      (s.rc ≠ 31#5 → (t.k0, t.k1) = fwdRound s.k0 s.k1 (zext64 s.rc) ∧ t.rc.toNat = s.rc.toNat + 1 ∧ t.busy = true) ∧
      (s.rc = 31#5 → sameKeys s t ∧ t.rc = 31#5 ∧ t.busy = false) ∧
      sameBlock s t ∧ t.opr = s.opr ∧ sameHost s t ∧ t.draws = s.draws ∧ t.disturbed = s.disturbed

/-- R91, R92 with R22: a step of ENCRYPT at every index; the block round is keyed by K1 before its advance. -/
def Obligations.EncryptStep : Prop :=
  ∀ s : State, s.busy = true → s.opr = 0b01#2 → (s.rc = 31#5 → s.disturbed = []) →
    ∃ t, exec .encrypt s = .next t ∧
      (t.w0, t.w1) = fwdRound s.w0 s.w1 s.k1 ∧ (t.k0, t.k1) = fwdRound s.k0 s.k1 (zext64 s.rc) ∧
      (s.rc ≠ 31#5 → sameWords s t [] ∧ t.rc.toNat = s.rc.toNat + 1 ∧ t.busy = true) ∧
      (s.rc = 31#5 → HoldsBout t (fwdRound s.w0 s.w1 s.k1) ∧ sameWords s t [.bout 0, .bout 1] ∧
        t.rc = 31#5 ∧ t.busy = false) ∧
      t.opr = s.opr ∧ sameHost s t ∧ t.draws = s.draws ∧ t.disturbed = s.disturbed

/-- R97 with R22: a step of ENCRYPT_KS at every index; `k` is SCH[RC], a free value where that word is not written
(log 3). -/
def Obligations.EncryptKsStep : Prop :=
  ∀ s : State, s.busy = true → s.opr = 0b10#2 → (s.rc = 31#5 → s.disturbed = []) →
    ∃ t k, exec .encryptKs s = .next t ∧
      (∀ v, s.word (.sch s.rc) = some v → k = v ∧ t.draws = s.draws) ∧
      (t.w0, t.w1) = fwdRound s.w0 s.w1 k ∧
      (s.rc ≠ 31#5 → sameWords s t [] ∧ t.rc.toNat = s.rc.toNat + 1 ∧ t.busy = true) ∧
      (s.rc = 31#5 → HoldsBout t (fwdRound s.w0 s.w1 k) ∧ sameWords s t [.bout 0, .bout 1] ∧
        t.rc = 31#5 ∧ t.busy = false) ∧
      sameKeys s t ∧ t.opr = s.opr ∧ sameHost s t ∧ t.disturbed = s.disturbed

/-- R102, R103 with R22: a step of DECRYPT at every index, down to 0; `k` is SCH[RC], a free value where that word is not
written (log 3). -/
def Obligations.DecryptStep : Prop :=
  ∀ s : State, s.busy = true → s.opr = 0b11#2 → (s.rc = 0#5 → s.disturbed = []) →
    ∃ t k, exec .decrypt s = .next t ∧
      (∀ v, s.word (.sch s.rc) = some v → k = v ∧ t.draws = s.draws) ∧
      (t.w0, t.w1) = invRound s.w0 s.w1 k ∧
      (s.rc ≠ 0#5 → sameWords s t [] ∧ t.rc.toNat = s.rc.toNat - 1 ∧ t.busy = true) ∧
      (s.rc = 0#5 → HoldsBout t (invRound s.w0 s.w1 k) ∧ sameWords s t [.bout 0, .bout 1] ∧
        t.rc = 0#5 ∧ t.busy = false) ∧
      sameKeys s t ∧ t.opr = s.opr ∧ sameHost s t ∧ t.disturbed = s.disturbed

/-! ### The host's moves (20_memory.md section 4, 70_reset_and_hazards.md R146) -/

/-- R44: while BUSY = 0 a host write is a MemWrite of any Word to any location, and changes nothing else. -/
def Obligations.HostWriteWhileIdle : Prop :=
  ∀ (s : State) l v r, s.busy = false → s.script = .wr l v :: r →
    ∃ t x, step s = .next t ∧ StandsFor s v x ∧ t.word l = some x ∧ sameWords s t [l] ∧
      t = { s with script := r, mem := t.mem, draws := t.draws } ∧ (∀ a, v = .lit a → t.draws = s.draws)

/-- R44, R36: while BUSY = 0 a host read returns the Word held and changes nothing in the core; of a word not written since
RESET (log 3), and of any word while BUSY = 1 (R146, U4; log 9), it returns some Word, and the core stays as it is. -/
def Obligations.HostReadReturnsWord : Prop :=
  (∀ (s : State) l v r, s.busy = false → s.script = .rd l :: r → s.word l = some v →
    step s = .next ((s.setScript r).addSeen (.word l v))) ∧
  (∀ (s : State) l r, s.script = .rd l :: r → ∃ t v, step s = .next t ∧ t.seen = .word l v :: s.seen ∧
    t = { s with script := r, seen := t.seen, draws := t.draws })

/-- R51, R146: a host write to KEY or BIN while BUSY = 1 changes that word and cannot affect the command in progress. -/
def Obligations.HostWriteOfInputWhileBusy : Prop :=
  ∀ (s : State) l v r, s.busy = true → isInput l = true → s.script = .wr l v :: r →
    ∃ t x, step s = .next t ∧ StandsFor s v x ∧ t.word l = some x ∧ sameWords s t [l] ∧
      t = { s with script := r, mem := t.mem, draws := t.draws }

/-- 93_implementation_defined.md U4 (R146 leaves it open; log 9): a host write to SCH or BOUT while BUSY = 1 does not stop
the command, touches no other word and no register, and leaves that word and every word still to be written open. -/
def Obligations.HostWriteOfOutputWhileBusy : Prop :=
  ∀ (s : State) l v r, s.busy = true → isInput l = false → s.script = .wr l v :: r →
    ∃ t, step s = .next t ∧ sameWords s t [l] ∧ written t l = true ∧
      (∀ l', l' ∈ t.disturbed ↔ l' = l ∨ l' ∈ s.disturbed ∨ l' ∈ s.stillToWrite) ∧
      t = { s with script := r, mem := t.mem, draws := t.draws, disturbed := t.disturbed }

/-- U4 (log 9): the last step of a disturbed command still ends it; it differs from the last step of the undisturbed
command only in W0, W1, the words left open, which all hold some Word, and in how many free values were taken. -/
def Obligations.DisturbedCommandEnds : Prop :=
  ∀ (s : State) i, s.busy = true → s.opr = encode i → s.rc = (if i = .decrypt then 0#5 else 31#5) → s.disturbed ≠ [] →
    ∃ t t0, exec i s = .next t ∧ exec i (s.setDisturbed []) = .next t0 ∧
      t.busy = false ∧ t.disturbed = [] ∧ sameKeys t0 t ∧ sameSequencer t0 t ∧ sameHost t0 t ∧
      sameWords t0 t s.disturbed ∧ (∀ l ∈ s.disturbed, written t l = true)

/-- R64: WAIT polls. While BUSY = 1 the core goes on under it; the poll that reads BUSY = 0 ends it. Model's choice
(log 7): polls that read 1 are not counted. -/
def Obligations.WaitPollsUntilIdle : Prop :=
  ∀ (s : State) r, s.script = .wait :: r →
    (s.busy = true → step s = coreStep s) ∧
    (s.busy = false → step s = .next ((s.setScript r).addSeen (.status 0#1)))

/-- R65, R149: MOVB copies BOUT to BIN and changes nothing else in the core. -/
def Obligations.MovbCopiesResultToInput : Prop :=
  ∀ (s : State) v r, s.busy = false → HoldsBout s v → s.script = movb ++ r →
    ∃ t, runFor 4 s = .next t ∧ HoldsBin t v ∧ sameWords s t [.bin 0, .bin 1] ∧
      t = { s with script := r, mem := t.mem, seen := [.word (.bout 1) v.2, .word (.bout 0) v.1] ++ s.seen }

/-- R65: LOADK, LOADB and LOADS fill KEY, BIN and SCH and touch no other word. -/
def Obligations.LoadLinesFillBuffers : Prop :=
  (∀ (s : State) v r, s.busy = false → s.script = loadk v ++ r → ∃ t, runFor 2 s = .next t ∧
    HoldsKey t v ∧ sameWords s t [.key 0, .key 1] ∧ t = { s with script := r, mem := t.mem }) ∧
  (∀ (s : State) v r, s.busy = false → s.script = loadb v ++ r → ∃ t, runFor 2 s = .next t ∧
    HoldsBin t v ∧ sameWords s t [.bin 0, .bin 1] ∧ t = { s with script := r, mem := t.mem }) ∧
  (∀ (s : State) v r, s.busy = false → s.script = loads v ++ r → ∃ t, runFor 32 s = .next t ∧
    HoldsSch t v ∧ sameWords s t schedule ∧ t = { s with script := r, mem := t.mem })

/-- R65, R64: RUN is START and WAIT: from an idle state it leaves what the command as a whole leaves. Model's choice (log 7):
that this takes 34 transitions and that the host's record holds one STATUS read for the whole WAIT, the 0 that ends it. -/
def Obligations.RunLineRunsCommand : Prop :=
  ∀ (s : State) i r, s.busy = false → s.disturbed = [] → s.script = runLines i ++ r →
    ∃ t, runCommand i (s.setScript []) = .next t ∧
      runFor 34 s = .next ((t.setScript r).addSeen (.status 0#1))

/-! ### Commands as a whole (R21, R22, R84, R93, R98, R104, R139) -/

/-- R22, R21: every command takes exactly 32 steps after its START, whatever its data, and RC takes the values 0 up to 31,
for DECRYPT 31 down to 0, the last one twice. -/
def Obligations.EveryCommandTakes32Steps : Prop :=
  ∀ (s : State) i, s.busy = false → s.script = [] → ∃ s1, exec i s = .next s1 ∧
    ∀ k ≤ 32, ∃ t, runFor k s1 = .next t ∧ t.busy = decide (k < 32) ∧ t.opr = encode i ∧
      t.rc.toNat = (if i = .decrypt then 31 - min k 31 else min k 31)

/-- R151: from every busy state, reached or not, BUSY falls after the steps that RC still allows. -/
def Obligations.BusyAlwaysFalls : Prop :=
  ∀ s : State, s.busy = true → s.script = [] →
    let n := if s.opr = 0b11#2 then s.rc.toNat + 1 else 32 - s.rc.toNat
    (∀ k < n, ∃ t, runFor k s = .next t ∧ t.busy = true) ∧
      ∃ t, runFor n s = .next t ∧ t.busy = false

/-- R43, R92: before its last step a command has written nothing, but for KEY_SCHEDULE, which has written SCH[0] to
SCH[k-1] after k steps. -/
def Obligations.BuffersDuringCommand : Prop :=
  ∀ (s : State) i, s.busy = false → s.script = [] → ∃ s1, exec i s = .next s1 ∧
    ∀ k < 32, ∃ t, runFor k s1 = .next t ∧
      (i ≠ .keySchedule → sameWords s t []) ∧
      (i = .keySchedule → sameWords s t ((List.range k).map (fun j => .sch (BitVec.ofNat 5 j))))

/-- R139, R27: a command started on any contents, written or not, ends after its 32 steps, has written all its designated
outputs and changed no other buffer word. -/
def Obligations.EveryCommandEndsOnAnyContents : Prop :=
  ∀ (s : State) i, Idle s → ∃ t, runCommand i s = .next t ∧ Idle t ∧ sameWords s t (outputs i) ∧
    (∀ l ∈ outputs i, written t l = true) ∧ t.opr = encode i ∧ t.seen = s.seen

/-- R84, R86: KEY_SCHEDULE as a function: SCH[i] = B_i, every other word unchanged; W0 and W1 untouched, the key pair left
at (A_31, B_31). -/
def Obligations.KeyScheduleFunctionForm : Prop :=
  ∀ (s : State) key, Idle s → HoldsKey s key → ∃ t, runCommand .keySchedule s = .next t ∧ Idle t ∧
    HoldsSch t (ks key) ∧ sameWords s t schedule ∧ sameBlock s t ∧ (t.k0, t.k1) = keySeq key 31 ∧
    t.opr = 0b00#2 ∧ t.rc = 31#5 ∧ t.draws = s.draws

/-- R93, R94: ENCRYPT as a function: BOUT = enc(BIN, KEY), every other word unchanged; the key pair left at (A_32, B_32).
The loop `enc` is also the rule's recurrence, 32 rounds keyed by the B_i that KEY_SCHEDULE stores. -/
def Obligations.EncryptFunctionForm : Prop :=
  (∀ (s : State) pt key, Idle s → HoldsBin s pt → HoldsKey s key → ∃ t, runCommand .encrypt s = .next t ∧ Idle t ∧
    HoldsBout t (enc pt key) ∧ sameWords s t [.bout 0, .bout 1] ∧ (t.w0, t.w1) = enc pt key ∧
    (t.k0, t.k1) = keySeq key 32 ∧ t.opr = 0b01#2 ∧ t.rc = 31#5 ∧ t.draws = s.draws) ∧
  ∀ pt key, enc pt key = encSeq pt (fun i => (keySeq key i.toNat).2) 32 ∧ enc pt key = encKs pt (ks key)

/-- R98: ENCRYPT_KS as a function: BOUT = enc_ks(BIN, SCH), every other word unchanged; K0 and K1 untouched;
under a key's schedule it encrypts as ENCRYPT does under the key. -/
def Obligations.EncryptKsFunctionForm : Prop :=
  (∀ (s : State) pt sch, Idle s → HoldsBin s pt → HoldsSch s sch → ∃ t, runCommand .encryptKs s = .next t ∧ Idle t ∧
    HoldsBout t (encKs pt sch) ∧ sameWords s t [.bout 0, .bout 1] ∧ (t.w0, t.w1) = encKs pt sch ∧ sameKeys s t ∧
    t.opr = 0b10#2 ∧ t.rc = 31#5 ∧ t.draws = s.draws) ∧
  ∀ pt key, enc pt key = encKs pt (ks key)

/-- R104: DECRYPT as a function: BOUT = dec(BIN, SCH), every other word unchanged; K0 and K1 untouched; it undoes
ENCRYPT_KS under the same schedule. -/
def Obligations.DecryptFunctionForm : Prop :=
  (∀ (s : State) ct sch, Idle s → HoldsBin s ct → HoldsSch s sch → ∃ t, runCommand .decrypt s = .next t ∧ Idle t ∧
    HoldsBout t (dec ct sch) ∧ sameWords s t [.bout 0, .bout 1] ∧ (t.w0, t.w1) = dec ct sch ∧ sameKeys s t ∧
    t.opr = 0b11#2 ∧ t.rc = 0#5 ∧ t.draws = s.draws) ∧
  ∀ pt sch, dec (encKs pt sch) sch = pt

/-! ### Laws (44_laws.md) -/

/-- R109, R110, R117: dec and enc_ks undo each other under any one schedule, a key's too. -/
def Obligations.DecryptUndoesEncrypt : Prop :=
  (∀ pt sch, dec (encKs pt sch) sch = pt) ∧ (∀ ct sch, encKs (dec ct sch) sch = ct) ∧
  (∀ pt key, dec (encKs pt (ks key)) (ks key) = pt)

/-- R108, R111: the key pair of ENCRYPT's loop is the schedule's, so the two encryptions agree. -/
def Obligations.EncryptAgreesWithSchedule : Prop :=
  (∀ pt key, ∀ i : BitVec 5, (encLoop pt key i.toNat).2.2 = ks key i) ∧ (∀ pt key, enc pt key = encKs pt (ks key))

/-- R114: the schedule determines the key, so `ks` is injective; R85 (b): SCH[0] = KEY[1]. -/
def Obligations.ScheduleDeterminesKey : Prop :=
  (∀ key, key.2 = ks key 0#5 ∧
    key.1 = rol64 (sub64 (xor64 (ks key 1#5) (rol64 (ks key 0#5) 3)) (ks key 0#5)) 8) ∧
  Function.Injective ks

/-- R116: for a fixed schedule enc_ks is a bijection with inverse dec; for a fixed key enc is a bijection. -/
def Obligations.EncryptionIsPermutation : Prop :=
  (∀ sch, Function.Bijective (fun pt => encKs pt sch) ∧
    Function.LeftInverse (fun ct => dec ct sch) (fun pt => encKs pt sch) ∧
    Function.RightInverse (fun ct => dec ct sch) (fun pt => encKs pt sch)) ∧
  (∀ key, Function.Bijective (fun pt => enc pt key))

/-- R109 at the machine: after ENCRYPT_KS, a DECRYPT of its BOUT copied to BIN, under the same SCH, leaves the plaintext
in BOUT, whatever else the second state holds. -/
def Obligations.MachineRoundTrip : Prop :=
  ∀ (s : State) pt sch, Idle s → HoldsBin s pt → HoldsSch s sch →
    ∃ t ct, runCommand .encryptKs s = .next t ∧ HoldsBout t ct ∧
      ∀ s2 : State, Idle s2 → HoldsBin s2 ct → HoldsSch s2 sch →
        ∃ u, runCommand .decrypt s2 = .next u ∧ HoldsBout u pt

/-- R111 at the machine: ENCRYPT leaves in BOUT what KEY_SCHEDULE and then ENCRYPT_KS leave there. -/
def Obligations.MachineEquivalence : Prop :=
  ∀ (s : State) pt key, Idle s → HoldsBin s pt → HoldsKey s key →
    ∃ t u v ct, runCommand .encrypt s = .next t ∧ runCommand .keySchedule s = .next u ∧
      runCommand .encryptKs u = .next v ∧ HoldsBout t ct ∧ HoldsBout v ct

/-- R28, R112: what a command leaves in its outputs depends on the words it reads and on nothing else: not on W0, W1, K0,
K1, OPR, RC, other words or earlier commands. -/
def Obligations.ResultDependsOnOperandsOnly : Prop :=
  ∀ i (s s' : State), Idle s → Idle s' → (∀ l ∈ reads i, written s l = true ∧ s'.word l = s.word l) →
    ∃ t t', runCommand i s = .next t ∧ runCommand i s' = .next t' ∧ ∀ l ∈ outputs i, t'.word l = t.word l

/-! ### Invariants and rules of the whole machine -/

/-- R27: whatever runs, the core itself changes no word of KEY or BIN (the host makes no move here). -/
def Obligations.CoreNeverChangesInputs : Prop :=
  ∀ s t : State, MachineInv s → s.script = [] → step s = .next t → ∀ l, isInput l = true → t.word l = s.word l

/-- R20, R23, R30, R51: while BUSY = 1 no move but RESET changes OPR; BUSY rises only by a CMD write and falls only in a
last step or by RESET. -/
def Obligations.OprIsLatchedAndBusyHasThreeWriters : Prop :=
  ∀ s t : State, step s = .next t → (∀ r, s.script ≠ .reset :: r) →
    (s.busy = true → t.opr = s.opr) ∧
    (s.busy = false → t.busy = true → ∃ op r, s.script = .cmd op :: r ∧ t.opr = op) ∧
    (s.busy = true → t.busy = false → s.rc = (if s.opr = 0b11#2 then 0#5 else 31#5) ∧ t.rc = s.rc)

/-- Every transition, from every state, keeps the canonical form of the buffers and leaves open only what log 9 says
(20_memory.md R35; log 1, 9). -/
def Obligations.StepKeepsInvariant : Prop := ∀ s t : State, MachineInv s → step s = .next t → MachineInv t

/-- R139, R112, 93_implementation_defined.md ("there is no unspecified result of any command on written operands"): while
the host keeps its duties and asks for no open value, no transition takes a free value, and this goes on. -/
def Obligations.DisciplinedStepIsDeterminate : Prop :=
  ∀ s t : State, hostOk s = true → hostKnown s = true → runningOk s = true → step s = .next t →
    t.draws = s.draws ∧ runningOk t = true
end

