-- ==== Sys2Proof/Laws/State.lean ====
section
/-! SUPPORT. One lemma per field per named update of State (Machine/Ops.lean, Machine/Operands.lean), true by `rfl`, so
that no later proof unfolds a record update. `word` counts as a field where the update leaves the buffers alone. -/

namespace Sys2Proof.Machine.State

variable (s : State)

@[simp] theorem setBlock_w0 (v : Pair) : (s.setBlock v).w0 = v.1 := rfl
@[simp] theorem setBlock_w1 (v : Pair) : (s.setBlock v).w1 = v.2 := rfl
@[simp] theorem setBlock_k0 (v : Pair) : (s.setBlock v).k0 = s.k0 := rfl
@[simp] theorem setBlock_k1 (v : Pair) : (s.setBlock v).k1 = s.k1 := rfl
@[simp] theorem setBlock_opr (v : Pair) : (s.setBlock v).opr = s.opr := rfl
@[simp] theorem setBlock_rc (v : Pair) : (s.setBlock v).rc = s.rc := rfl
@[simp] theorem setBlock_busy (v : Pair) : (s.setBlock v).busy = s.busy := rfl
@[simp] theorem setBlock_mem (v : Pair) : (s.setBlock v).mem = s.mem := rfl
@[simp] theorem setBlock_draws (v : Pair) : (s.setBlock v).draws = s.draws := rfl
@[simp] theorem setBlock_disturbed (v : Pair) : (s.setBlock v).disturbed = s.disturbed := rfl
@[simp] theorem setBlock_script (v : Pair) : (s.setBlock v).script = s.script := rfl
@[simp] theorem setBlock_seen (v : Pair) : (s.setBlock v).seen = s.seen := rfl
@[simp] theorem setBlock_word (v : Pair) (l' : Loc) : (s.setBlock v).word l' = s.word l' := rfl

@[simp] theorem setKeys_w0 (v : Pair) : (s.setKeys v).w0 = s.w0 := rfl
@[simp] theorem setKeys_w1 (v : Pair) : (s.setKeys v).w1 = s.w1 := rfl
@[simp] theorem setKeys_k0 (v : Pair) : (s.setKeys v).k0 = v.1 := rfl
@[simp] theorem setKeys_k1 (v : Pair) : (s.setKeys v).k1 = v.2 := rfl
@[simp] theorem setKeys_opr (v : Pair) : (s.setKeys v).opr = s.opr := rfl
@[simp] theorem setKeys_rc (v : Pair) : (s.setKeys v).rc = s.rc := rfl
@[simp] theorem setKeys_busy (v : Pair) : (s.setKeys v).busy = s.busy := rfl
@[simp] theorem setKeys_mem (v : Pair) : (s.setKeys v).mem = s.mem := rfl
@[simp] theorem setKeys_draws (v : Pair) : (s.setKeys v).draws = s.draws := rfl
@[simp] theorem setKeys_disturbed (v : Pair) : (s.setKeys v).disturbed = s.disturbed := rfl
@[simp] theorem setKeys_script (v : Pair) : (s.setKeys v).script = s.script := rfl
@[simp] theorem setKeys_seen (v : Pair) : (s.setKeys v).seen = s.seen := rfl
@[simp] theorem setKeys_word (v : Pair) (l' : Loc) : (s.setKeys v).word l' = s.word l' := rfl

@[simp] theorem setOpr_w0 (op : BitVec 2) : (s.setOpr op).w0 = s.w0 := rfl
@[simp] theorem setOpr_w1 (op : BitVec 2) : (s.setOpr op).w1 = s.w1 := rfl
@[simp] theorem setOpr_k0 (op : BitVec 2) : (s.setOpr op).k0 = s.k0 := rfl
@[simp] theorem setOpr_k1 (op : BitVec 2) : (s.setOpr op).k1 = s.k1 := rfl
@[simp] theorem setOpr_opr (op : BitVec 2) : (s.setOpr op).opr = op := rfl
@[simp] theorem setOpr_rc (op : BitVec 2) : (s.setOpr op).rc = s.rc := rfl
@[simp] theorem setOpr_busy (op : BitVec 2) : (s.setOpr op).busy = s.busy := rfl
@[simp] theorem setOpr_mem (op : BitVec 2) : (s.setOpr op).mem = s.mem := rfl
@[simp] theorem setOpr_draws (op : BitVec 2) : (s.setOpr op).draws = s.draws := rfl
@[simp] theorem setOpr_disturbed (op : BitVec 2) : (s.setOpr op).disturbed = s.disturbed := rfl
@[simp] theorem setOpr_script (op : BitVec 2) : (s.setOpr op).script = s.script := rfl
@[simp] theorem setOpr_seen (op : BitVec 2) : (s.setOpr op).seen = s.seen := rfl
@[simp] theorem setOpr_word (op : BitVec 2) (l' : Loc) : (s.setOpr op).word l' = s.word l' := rfl

@[simp] theorem setRc_w0 (i : BitVec 5) : (s.setRc i).w0 = s.w0 := rfl
@[simp] theorem setRc_w1 (i : BitVec 5) : (s.setRc i).w1 = s.w1 := rfl
@[simp] theorem setRc_k0 (i : BitVec 5) : (s.setRc i).k0 = s.k0 := rfl
@[simp] theorem setRc_k1 (i : BitVec 5) : (s.setRc i).k1 = s.k1 := rfl
@[simp] theorem setRc_opr (i : BitVec 5) : (s.setRc i).opr = s.opr := rfl
@[simp] theorem setRc_rc (i : BitVec 5) : (s.setRc i).rc = i := rfl
@[simp] theorem setRc_busy (i : BitVec 5) : (s.setRc i).busy = s.busy := rfl
@[simp] theorem setRc_mem (i : BitVec 5) : (s.setRc i).mem = s.mem := rfl
@[simp] theorem setRc_draws (i : BitVec 5) : (s.setRc i).draws = s.draws := rfl
@[simp] theorem setRc_disturbed (i : BitVec 5) : (s.setRc i).disturbed = s.disturbed := rfl
@[simp] theorem setRc_script (i : BitVec 5) : (s.setRc i).script = s.script := rfl
@[simp] theorem setRc_seen (i : BitVec 5) : (s.setRc i).seen = s.seen := rfl
@[simp] theorem setRc_word (i : BitVec 5) (l' : Loc) : (s.setRc i).word l' = s.word l' := rfl

@[simp] theorem setBusy_w0 (b : Bool) : (s.setBusy b).w0 = s.w0 := rfl
@[simp] theorem setBusy_w1 (b : Bool) : (s.setBusy b).w1 = s.w1 := rfl
@[simp] theorem setBusy_k0 (b : Bool) : (s.setBusy b).k0 = s.k0 := rfl
@[simp] theorem setBusy_k1 (b : Bool) : (s.setBusy b).k1 = s.k1 := rfl
@[simp] theorem setBusy_opr (b : Bool) : (s.setBusy b).opr = s.opr := rfl
@[simp] theorem setBusy_rc (b : Bool) : (s.setBusy b).rc = s.rc := rfl
@[simp] theorem setBusy_busy (b : Bool) : (s.setBusy b).busy = b := rfl
@[simp] theorem setBusy_mem (b : Bool) : (s.setBusy b).mem = s.mem := rfl
@[simp] theorem setBusy_draws (b : Bool) : (s.setBusy b).draws = s.draws := rfl
@[simp] theorem setBusy_disturbed (b : Bool) : (s.setBusy b).disturbed = s.disturbed := rfl
@[simp] theorem setBusy_script (b : Bool) : (s.setBusy b).script = s.script := rfl
@[simp] theorem setBusy_seen (b : Bool) : (s.setBusy b).seen = s.seen := rfl
@[simp] theorem setBusy_word (b : Bool) (l' : Loc) : (s.setBusy b).word l' = s.word l' := rfl

@[simp] theorem setMem_w0 (m : Memory) : (s.setMem m).w0 = s.w0 := rfl
@[simp] theorem setMem_w1 (m : Memory) : (s.setMem m).w1 = s.w1 := rfl
@[simp] theorem setMem_k0 (m : Memory) : (s.setMem m).k0 = s.k0 := rfl
@[simp] theorem setMem_k1 (m : Memory) : (s.setMem m).k1 = s.k1 := rfl
@[simp] theorem setMem_opr (m : Memory) : (s.setMem m).opr = s.opr := rfl
@[simp] theorem setMem_rc (m : Memory) : (s.setMem m).rc = s.rc := rfl
@[simp] theorem setMem_busy (m : Memory) : (s.setMem m).busy = s.busy := rfl
@[simp] theorem setMem_mem (m : Memory) : (s.setMem m).mem = m := rfl
@[simp] theorem setMem_draws (m : Memory) : (s.setMem m).draws = s.draws := rfl
@[simp] theorem setMem_disturbed (m : Memory) : (s.setMem m).disturbed = s.disturbed := rfl
@[simp] theorem setMem_script (m : Memory) : (s.setMem m).script = s.script := rfl
@[simp] theorem setMem_seen (m : Memory) : (s.setMem m).seen = s.seen := rfl

@[simp] theorem setDraws_w0 (n : Nat) : (s.setDraws n).w0 = s.w0 := rfl
@[simp] theorem setDraws_w1 (n : Nat) : (s.setDraws n).w1 = s.w1 := rfl
@[simp] theorem setDraws_k0 (n : Nat) : (s.setDraws n).k0 = s.k0 := rfl
@[simp] theorem setDraws_k1 (n : Nat) : (s.setDraws n).k1 = s.k1 := rfl
@[simp] theorem setDraws_opr (n : Nat) : (s.setDraws n).opr = s.opr := rfl
@[simp] theorem setDraws_rc (n : Nat) : (s.setDraws n).rc = s.rc := rfl
@[simp] theorem setDraws_busy (n : Nat) : (s.setDraws n).busy = s.busy := rfl
@[simp] theorem setDraws_mem (n : Nat) : (s.setDraws n).mem = s.mem := rfl
@[simp] theorem setDraws_draws (n : Nat) : (s.setDraws n).draws = n := rfl
@[simp] theorem setDraws_disturbed (n : Nat) : (s.setDraws n).disturbed = s.disturbed := rfl
@[simp] theorem setDraws_script (n : Nat) : (s.setDraws n).script = s.script := rfl
@[simp] theorem setDraws_seen (n : Nat) : (s.setDraws n).seen = s.seen := rfl
@[simp] theorem setDraws_word (n : Nat) (l' : Loc) : (s.setDraws n).word l' = s.word l' := rfl

@[simp] theorem setDisturbed_w0 (ls : List Loc) : (s.setDisturbed ls).w0 = s.w0 := rfl
@[simp] theorem setDisturbed_w1 (ls : List Loc) : (s.setDisturbed ls).w1 = s.w1 := rfl
@[simp] theorem setDisturbed_k0 (ls : List Loc) : (s.setDisturbed ls).k0 = s.k0 := rfl
@[simp] theorem setDisturbed_k1 (ls : List Loc) : (s.setDisturbed ls).k1 = s.k1 := rfl
@[simp] theorem setDisturbed_opr (ls : List Loc) : (s.setDisturbed ls).opr = s.opr := rfl
@[simp] theorem setDisturbed_rc (ls : List Loc) : (s.setDisturbed ls).rc = s.rc := rfl
@[simp] theorem setDisturbed_busy (ls : List Loc) : (s.setDisturbed ls).busy = s.busy := rfl
@[simp] theorem setDisturbed_mem (ls : List Loc) : (s.setDisturbed ls).mem = s.mem := rfl
@[simp] theorem setDisturbed_draws (ls : List Loc) : (s.setDisturbed ls).draws = s.draws := rfl
@[simp] theorem setDisturbed_disturbed (ls : List Loc) : (s.setDisturbed ls).disturbed = ls := rfl
@[simp] theorem setDisturbed_script (ls : List Loc) : (s.setDisturbed ls).script = s.script := rfl
@[simp] theorem setDisturbed_seen (ls : List Loc) : (s.setDisturbed ls).seen = s.seen := rfl
@[simp] theorem setDisturbed_word (ls : List Loc) (l' : Loc) : (s.setDisturbed ls).word l' = s.word l' := rfl

@[simp] theorem setScript_w0 (r : List ScriptLine) : (s.setScript r).w0 = s.w0 := rfl
@[simp] theorem setScript_w1 (r : List ScriptLine) : (s.setScript r).w1 = s.w1 := rfl
@[simp] theorem setScript_k0 (r : List ScriptLine) : (s.setScript r).k0 = s.k0 := rfl
@[simp] theorem setScript_k1 (r : List ScriptLine) : (s.setScript r).k1 = s.k1 := rfl
@[simp] theorem setScript_opr (r : List ScriptLine) : (s.setScript r).opr = s.opr := rfl
@[simp] theorem setScript_rc (r : List ScriptLine) : (s.setScript r).rc = s.rc := rfl
@[simp] theorem setScript_busy (r : List ScriptLine) : (s.setScript r).busy = s.busy := rfl
@[simp] theorem setScript_mem (r : List ScriptLine) : (s.setScript r).mem = s.mem := rfl
@[simp] theorem setScript_draws (r : List ScriptLine) : (s.setScript r).draws = s.draws := rfl
@[simp] theorem setScript_disturbed (r : List ScriptLine) : (s.setScript r).disturbed = s.disturbed := rfl
@[simp] theorem setScript_script (r : List ScriptLine) : (s.setScript r).script = r := rfl
@[simp] theorem setScript_seen (r : List ScriptLine) : (s.setScript r).seen = s.seen := rfl
@[simp] theorem setScript_word (r : List ScriptLine) (l' : Loc) : (s.setScript r).word l' = s.word l' := rfl

@[simp] theorem addSeen_w0 (x : Seen) : (s.addSeen x).w0 = s.w0 := rfl
@[simp] theorem addSeen_w1 (x : Seen) : (s.addSeen x).w1 = s.w1 := rfl
@[simp] theorem addSeen_k0 (x : Seen) : (s.addSeen x).k0 = s.k0 := rfl
@[simp] theorem addSeen_k1 (x : Seen) : (s.addSeen x).k1 = s.k1 := rfl
@[simp] theorem addSeen_opr (x : Seen) : (s.addSeen x).opr = s.opr := rfl
@[simp] theorem addSeen_rc (x : Seen) : (s.addSeen x).rc = s.rc := rfl
@[simp] theorem addSeen_busy (x : Seen) : (s.addSeen x).busy = s.busy := rfl
@[simp] theorem addSeen_mem (x : Seen) : (s.addSeen x).mem = s.mem := rfl
@[simp] theorem addSeen_draws (x : Seen) : (s.addSeen x).draws = s.draws := rfl
@[simp] theorem addSeen_disturbed (x : Seen) : (s.addSeen x).disturbed = s.disturbed := rfl
@[simp] theorem addSeen_script (x : Seen) : (s.addSeen x).script = s.script := rfl
@[simp] theorem addSeen_seen (x : Seen) : (s.addSeen x).seen = x :: s.seen := rfl
@[simp] theorem addSeen_word (x : Seen) (l' : Loc) : (s.addSeen x).word l' = s.word l' := rfl

@[simp] theorem afterRead_w0 (l : Loc) : (s.afterRead l).w0 = s.w0 := rfl
@[simp] theorem afterRead_w1 (l : Loc) : (s.afterRead l).w1 = s.w1 := rfl
@[simp] theorem afterRead_k0 (l : Loc) : (s.afterRead l).k0 = s.k0 := rfl
@[simp] theorem afterRead_k1 (l : Loc) : (s.afterRead l).k1 = s.k1 := rfl
@[simp] theorem afterRead_opr (l : Loc) : (s.afterRead l).opr = s.opr := rfl
@[simp] theorem afterRead_rc (l : Loc) : (s.afterRead l).rc = s.rc := rfl
@[simp] theorem afterRead_busy (l : Loc) : (s.afterRead l).busy = s.busy := rfl
@[simp] theorem afterRead_mem (l : Loc) : (s.afterRead l).mem = s.mem := rfl
@[simp] theorem afterRead_draws (l : Loc) : (s.afterRead l).draws = if (s.word l).isSome then s.draws else s.draws + 1 := rfl
@[simp] theorem afterRead_disturbed (l : Loc) : (s.afterRead l).disturbed = s.disturbed := rfl
@[simp] theorem afterRead_script (l : Loc) : (s.afterRead l).script = s.script := rfl
@[simp] theorem afterRead_seen (l : Loc) : (s.afterRead l).seen = s.seen := rfl
@[simp] theorem afterRead_word (l : Loc) (l' : Loc) : (s.afterRead l).word l' = s.word l' := rfl

@[simp] theorem memWrite_w0 (l : Loc) (v : Word) : (s.memWrite l v).w0 = s.w0 := rfl
@[simp] theorem memWrite_w1 (l : Loc) (v : Word) : (s.memWrite l v).w1 = s.w1 := rfl
@[simp] theorem memWrite_k0 (l : Loc) (v : Word) : (s.memWrite l v).k0 = s.k0 := rfl
@[simp] theorem memWrite_k1 (l : Loc) (v : Word) : (s.memWrite l v).k1 = s.k1 := rfl
@[simp] theorem memWrite_opr (l : Loc) (v : Word) : (s.memWrite l v).opr = s.opr := rfl
@[simp] theorem memWrite_rc (l : Loc) (v : Word) : (s.memWrite l v).rc = s.rc := rfl
@[simp] theorem memWrite_busy (l : Loc) (v : Word) : (s.memWrite l v).busy = s.busy := rfl
@[simp] theorem memWrite_mem (l : Loc) (v : Word) : (s.memWrite l v).mem = s.mem.put l.addr v := rfl
@[simp] theorem memWrite_draws (l : Loc) (v : Word) : (s.memWrite l v).draws = s.draws := rfl
@[simp] theorem memWrite_disturbed (l : Loc) (v : Word) : (s.memWrite l v).disturbed = s.disturbed := rfl
@[simp] theorem memWrite_script (l : Loc) (v : Word) : (s.memWrite l v).script = s.script := rfl
@[simp] theorem memWrite_seen (l : Loc) (v : Word) : (s.memWrite l v).seen = s.seen := rfl

@[simp] theorem drawInto_w0 (l : Loc) : (s.drawInto l).w0 = s.w0 := rfl
@[simp] theorem drawInto_w1 (l : Loc) : (s.drawInto l).w1 = s.w1 := rfl
@[simp] theorem drawInto_k0 (l : Loc) : (s.drawInto l).k0 = s.k0 := rfl
@[simp] theorem drawInto_k1 (l : Loc) : (s.drawInto l).k1 = s.k1 := rfl
@[simp] theorem drawInto_opr (l : Loc) : (s.drawInto l).opr = s.opr := rfl
@[simp] theorem drawInto_rc (l : Loc) : (s.drawInto l).rc = s.rc := rfl
@[simp] theorem drawInto_busy (l : Loc) : (s.drawInto l).busy = s.busy := rfl
@[simp] theorem drawInto_mem (l : Loc) : (s.drawInto l).mem = s.mem.put l.addr (Config.freeWord s.draws) := rfl
@[simp] theorem drawInto_draws (l : Loc) : (s.drawInto l).draws = s.draws + 1 := rfl
@[simp] theorem drawInto_disturbed (l : Loc) : (s.drawInto l).disturbed = s.disturbed := rfl
@[simp] theorem drawInto_script (l : Loc) : (s.drawInto l).script = s.script := rfl
@[simp] theorem drawInto_seen (l : Loc) : (s.drawInto l).seen = s.seen := rfl

@[simp] theorem blockRound_w0 (k : Word) : (s.blockRound k).w0 = (fwdRound s.w0 s.w1 k).1 := rfl
@[simp] theorem blockRound_w1 (k : Word) : (s.blockRound k).w1 = (fwdRound s.w0 s.w1 k).2 := rfl
@[simp] theorem blockRound_k0 (k : Word) : (s.blockRound k).k0 = s.k0 := rfl
@[simp] theorem blockRound_k1 (k : Word) : (s.blockRound k).k1 = s.k1 := rfl
@[simp] theorem blockRound_opr (k : Word) : (s.blockRound k).opr = s.opr := rfl
@[simp] theorem blockRound_rc (k : Word) : (s.blockRound k).rc = s.rc := rfl
@[simp] theorem blockRound_busy (k : Word) : (s.blockRound k).busy = s.busy := rfl
@[simp] theorem blockRound_mem (k : Word) : (s.blockRound k).mem = s.mem := rfl
@[simp] theorem blockRound_draws (k : Word) : (s.blockRound k).draws = s.draws := rfl
@[simp] theorem blockRound_disturbed (k : Word) : (s.blockRound k).disturbed = s.disturbed := rfl
@[simp] theorem blockRound_script (k : Word) : (s.blockRound k).script = s.script := rfl
@[simp] theorem blockRound_seen (k : Word) : (s.blockRound k).seen = s.seen := rfl
@[simp] theorem blockRound_word (k : Word) (l' : Loc) : (s.blockRound k).word l' = s.word l' := rfl

@[simp] theorem blockInvRound_w0 (k : Word) : (s.blockInvRound k).w0 = (invRound s.w0 s.w1 k).1 := rfl
@[simp] theorem blockInvRound_w1 (k : Word) : (s.blockInvRound k).w1 = (invRound s.w0 s.w1 k).2 := rfl
@[simp] theorem blockInvRound_k0 (k : Word) : (s.blockInvRound k).k0 = s.k0 := rfl
@[simp] theorem blockInvRound_k1 (k : Word) : (s.blockInvRound k).k1 = s.k1 := rfl
@[simp] theorem blockInvRound_opr (k : Word) : (s.blockInvRound k).opr = s.opr := rfl
@[simp] theorem blockInvRound_rc (k : Word) : (s.blockInvRound k).rc = s.rc := rfl
@[simp] theorem blockInvRound_busy (k : Word) : (s.blockInvRound k).busy = s.busy := rfl
@[simp] theorem blockInvRound_mem (k : Word) : (s.blockInvRound k).mem = s.mem := rfl
@[simp] theorem blockInvRound_draws (k : Word) : (s.blockInvRound k).draws = s.draws := rfl
@[simp] theorem blockInvRound_disturbed (k : Word) : (s.blockInvRound k).disturbed = s.disturbed := rfl
@[simp] theorem blockInvRound_script (k : Word) : (s.blockInvRound k).script = s.script := rfl
@[simp] theorem blockInvRound_seen (k : Word) : (s.blockInvRound k).seen = s.seen := rfl
@[simp] theorem blockInvRound_word (k : Word) (l' : Loc) : (s.blockInvRound k).word l' = s.word l' := rfl

@[simp] theorem keyAdvance_w0 : s.keyAdvance.w0 = s.w0 := rfl
@[simp] theorem keyAdvance_w1 : s.keyAdvance.w1 = s.w1 := rfl
@[simp] theorem keyAdvance_k0 : s.keyAdvance.k0 = (fwdRound s.k0 s.k1 (zext64 s.rc)).1 := rfl
@[simp] theorem keyAdvance_k1 : s.keyAdvance.k1 = (fwdRound s.k0 s.k1 (zext64 s.rc)).2 := rfl
@[simp] theorem keyAdvance_opr : s.keyAdvance.opr = s.opr := rfl
@[simp] theorem keyAdvance_rc : s.keyAdvance.rc = s.rc := rfl
@[simp] theorem keyAdvance_busy : s.keyAdvance.busy = s.busy := rfl
@[simp] theorem keyAdvance_mem : s.keyAdvance.mem = s.mem := rfl
@[simp] theorem keyAdvance_draws : s.keyAdvance.draws = s.draws := rfl
@[simp] theorem keyAdvance_disturbed : s.keyAdvance.disturbed = s.disturbed := rfl
@[simp] theorem keyAdvance_script : s.keyAdvance.script = s.script := rfl
@[simp] theorem keyAdvance_seen : s.keyAdvance.seen = s.seen := rfl
@[simp] theorem keyAdvance_word (l' : Loc) : s.keyAdvance.word l' = s.word l' := rfl

@[simp] theorem loadBlock_w0 : s.loadBlock.w0 = s.value (.bin 0) := rfl
@[simp] theorem loadBlock_w1 : s.loadBlock.w1 = (s.afterRead (.bin 0)).value (.bin 1) := rfl
@[simp] theorem loadBlock_k0 : s.loadBlock.k0 = s.k0 := rfl
@[simp] theorem loadBlock_k1 : s.loadBlock.k1 = s.k1 := rfl
@[simp] theorem loadBlock_opr : s.loadBlock.opr = s.opr := rfl
@[simp] theorem loadBlock_rc : s.loadBlock.rc = s.rc := rfl
@[simp] theorem loadBlock_busy : s.loadBlock.busy = s.busy := rfl
@[simp] theorem loadBlock_mem : s.loadBlock.mem = s.mem := rfl
@[simp] theorem loadBlock_draws : s.loadBlock.draws = ((s.afterRead (.bin 0)).afterRead (.bin 1)).draws := rfl
@[simp] theorem loadBlock_disturbed : s.loadBlock.disturbed = s.disturbed := rfl
@[simp] theorem loadBlock_script : s.loadBlock.script = s.script := rfl
@[simp] theorem loadBlock_seen : s.loadBlock.seen = s.seen := rfl
@[simp] theorem loadBlock_word (l' : Loc) : s.loadBlock.word l' = s.word l' := rfl

@[simp] theorem loadKey_w0 : s.loadKey.w0 = s.w0 := rfl
@[simp] theorem loadKey_w1 : s.loadKey.w1 = s.w1 := rfl
@[simp] theorem loadKey_k0 : s.loadKey.k0 = s.value (.key 0) := rfl
@[simp] theorem loadKey_k1 : s.loadKey.k1 = (s.afterRead (.key 0)).value (.key 1) := rfl
@[simp] theorem loadKey_opr : s.loadKey.opr = s.opr := rfl
@[simp] theorem loadKey_rc : s.loadKey.rc = s.rc := rfl
@[simp] theorem loadKey_busy : s.loadKey.busy = s.busy := rfl
@[simp] theorem loadKey_mem : s.loadKey.mem = s.mem := rfl
@[simp] theorem loadKey_draws : s.loadKey.draws = ((s.afterRead (.key 0)).afterRead (.key 1)).draws := rfl
@[simp] theorem loadKey_disturbed : s.loadKey.disturbed = s.disturbed := rfl
@[simp] theorem loadKey_script : s.loadKey.script = s.script := rfl
@[simp] theorem loadKey_seen : s.loadKey.seen = s.seen := rfl
@[simp] theorem loadKey_word (l' : Loc) : s.loadKey.word l' = s.word l' := rfl

@[simp] theorem writeBack_w0 : s.writeBack.w0 = s.w0 := rfl
@[simp] theorem writeBack_w1 : s.writeBack.w1 = s.w1 := rfl
@[simp] theorem writeBack_k0 : s.writeBack.k0 = s.k0 := rfl
@[simp] theorem writeBack_k1 : s.writeBack.k1 = s.k1 := rfl
@[simp] theorem writeBack_opr : s.writeBack.opr = s.opr := rfl
@[simp] theorem writeBack_rc : s.writeBack.rc = s.rc := rfl
@[simp] theorem writeBack_busy : s.writeBack.busy = s.busy := rfl
@[simp] theorem writeBack_mem : s.writeBack.mem = (s.mem.put (Loc.bout 1).addr s.w1).put (Loc.bout 0).addr s.w0 := rfl
@[simp] theorem writeBack_draws : s.writeBack.draws = s.draws := rfl
@[simp] theorem writeBack_disturbed : s.writeBack.disturbed = s.disturbed := rfl
@[simp] theorem writeBack_script : s.writeBack.script = s.script := rfl
@[simp] theorem writeBack_seen : s.writeBack.seen = s.seen := rfl

end Sys2Proof.Machine.State
end

