-- ==== Sys2Proof/Laws/Memory.lean ====
section
/-! SUPPORT. The buffers: a read after a write, the canonical form, and that equal contents are equal data
(20_memory.md R35 to R37). -/

namespace Sys2Proof.Machine

namespace Memory

@[simp] theorem find_put_self (m : Memory) (a : Nat) (v : Word) : (m.put a v).find a = some v := by
  induction m with
  | nil => simp [put, find]
  | cons c m ih =>
    obtain ⟨b, w⟩ := c
    simp only [put]
    split
    · simp [find]
    · split
      · simp [find]
      · rename_i h
        simp [find, ih, Ne.symm h]

theorem find_put_other (m : Memory) {a a' : Nat} (v : Word) (h : a' ≠ a) :
    (m.put a v).find a' = m.find a' := by
  induction m with
  | nil => simp [put, find, Ne.symm h]
  | cons c m ih =>
    obtain ⟨b, w⟩ := c
    simp only [put]
    split
    · simp [find, Ne.symm h]
    · split
      · subst_vars; simp [find, Ne.symm h]
      · simp only [find, ih]

/-- What a put can list: the new pair or an old one. -/
theorem mem_put {m : Memory} {a : Nat} {v : Word} {c : Nat × Word} (h : c ∈ m.put a v) :
    c = (a, v) ∨ c ∈ m := by
  induction m with
  | nil => simpa [put] using h
  | cons d m ih =>
    obtain ⟨b, w⟩ := d
    simp only [put] at h
    split at h
    · simpa using h
    · split at h
      · rcases List.mem_cons.1 h with rfl | h
        · exact .inl rfl
        · exact .inr (List.mem_cons_of_mem _ h)
      · rcases List.mem_cons.1 h with rfl | h
        · exact .inr (List.mem_cons_self ..)
        · exact (ih h).imp_right (List.mem_cons_of_mem _)

/-- A write keeps the canonical form. -/
theorem wf_put {m : Memory} {a : Nat} (v : Word) (h : m.wf) (ha : a < Config.locations) : (m.put a v).wf := by
  refine ⟨?_, fun c hc => (mem_put hc).elim (fun e => e ▸ ha) (h.2 c)⟩
  have hs := h.1
  clear h
  induction m with
  | nil => simp [put]
  | cons d m ih =>
    obtain ⟨b, w⟩ := d
    rw [List.pairwise_cons] at hs
    simp only [put]
    split
    · rename_i hab
      refine List.pairwise_cons.2 ⟨fun c hc => ?_, List.pairwise_cons.2 hs⟩
      rcases List.mem_cons.1 hc with rfl | hc
      · exact hab
      · exact lt_trans hab (hs.1 c hc)
    · split
      · rename_i hab
        subst hab
        exact List.pairwise_cons.2 hs
      · rename_i h1 h2
        refine List.pairwise_cons.2 ⟨fun c hc => ?_, ih hs.2⟩
        rcases mem_put hc with rfl | hc
        · simp only; omega
        · exact hs.1 c hc

theorem wf_nil : Memory.wf [] := by simp [Memory.wf]

theorem find_eq_none_of_lt {m : Memory} {a : Nat} (h : ∀ c ∈ m, a < c.1) : m.find a = none := by
  induction m with
  | nil => rfl
  | cons d m ih =>
    obtain ⟨b, w⟩ := d
    have hb := h (b, w) (List.mem_cons_self ..)
    have hne : b ≠ a := by simp only at hb; omega
    simp only [find, hne, if_false]
    exact ih (fun c hc => h c (List.mem_cons_of_mem _ hc))

/-- Nothing is listed outside the operand space. -/
theorem find_eq_none_of_ge {m : Memory} (h : m.wf) {a : Nat} (ha : Config.locations ≤ a) : m.find a = none := by
  have h2 := h.2
  clear h
  induction m with
  | nil => rfl
  | cons d m ih =>
    obtain ⟨b, w⟩ := d
    have hb := h2 (b, w) (List.mem_cons_self ..)
    have hne : b ≠ a := by simp only at hb; omega
    simp only [find, hne, if_false]
    exact ih (fun c hc => h2 c (List.mem_cons_of_mem _ hc))

end Memory

theorem Loc.addr_lt (l : Loc) : l.addr < Config.locations := by
  cases l with
  | key i => simp only [Loc.addr, Config.locations]; omega
  | bin i => simp only [Loc.addr, Config.locations]; omega
  | bout i => simp only [Loc.addr, Config.locations]; omega
  | sch i => have := i.isLt; simp only [Loc.addr, Config.locations, BitVec.toNat] at *; omega

/-- No location has two names (R35). -/
theorem Loc.addr_inj {l l' : Loc} (h : l.addr = l'.addr) : l = l' := by
  cases l <;> cases l' <;> simp only [Loc.addr] at h <;>
    first
    | (congr 1; first | exact Fin.ext (by omega) | exact BitVec.eq_of_toNat_eq (by omega))
    | (exfalso; omega)

@[simp] theorem State.word_memWrite_self (s : State) (l : Loc) (v : Word) : (s.memWrite l v).word l = some v := by
  simp [State.word]

theorem State.word_memWrite_other (s : State) {l l' : Loc} (v : Word) (h : l' ≠ l) :
    (s.memWrite l v).word l' = s.word l' := by
  simp [State.word, Memory.find_put_other _ _ (fun e => h (Loc.addr_inj e))]

theorem State.word_memWrite (s : State) (l l' : Loc) (v : Word) :
    (s.memWrite l v).word l' = if l' = l then some v else s.word l' := by
  split
  · subst_vars; simp
  · rename_i h; exact s.word_memWrite_other v h

theorem State.wf_memWrite {s : State} (l : Loc) (v : Word) (h : s.mem.wf) : (s.memWrite l v).mem.wf :=
  Memory.wf_put v h l.addr_lt

/-- A MemRead of a written location returns what it holds and changes nothing (R36). -/
theorem State.memRead_of_written {s : State} {l : Loc} {v : Word} (h : s.word l = some v) :
    s.memRead l = (v, s) := by
  simp [State.memRead, State.value, State.afterRead, h, State.setDraws]

theorem State.value_of_written {s : State} {l : Loc} {v : Word} (h : s.word l = some v) : s.value l = v := by
  simp [State.value, h]

theorem State.afterRead_of_written {s : State} {l : Loc} {v : Word} (h : s.word l = some v) :
    s.afterRead l = s := by
  simp [State.afterRead, h, State.setDraws]

end Sys2Proof.Machine
end

