-- ==== Sys2Proof/Laws/Ops.lean ====
section
/-! SUPPORT. What each shared operation of the sequencer can do, said once (Machine/Flags.lean). -/

namespace Sys2Proof.Machine

theorem State.word_drawInto (s : State) (l l' : Loc) :
    (s.drawInto l).word l' = if l' = l then some (Config.freeWord s.draws) else s.word l' :=
  State.word_memWrite (s.setDraws (s.draws + 1)) l l' _

theorem State.wf_drawInto {s : State} (l : Loc) (h : s.mem.wf) : (s.drawInto l).mem.wf :=
  Memory.wf_put _ h l.addr_lt

/-- Free values written to a list of locations change those locations and the count of free values, nothing else. -/
theorem State.drawAll_frame (ls : List Loc) (s : State) :
    ∃ m n, s.drawAll ls = (s.setMem m).setDraws n ∧ (s.mem.wf → m.wf) ∧
      ∀ l, l ∉ ls → (s.drawAll ls).word l = s.word l := by
  induction ls generalizing s with
  | nil => exact ⟨s.mem, s.draws, rfl, id, fun _ _ => rfl⟩
  | cons a ls ih =>
    obtain ⟨m, n, e, hw, hf⟩ := ih (s.drawInto a)
    refine ⟨m, n, e, fun h => hw (State.wf_drawInto a h), fun l hl => ?_⟩
    have h1 := hf l (fun h => hl (List.mem_cons_of_mem _ h))
    have h2 : (s.drawAll (a :: ls)) = (s.drawInto a).drawAll ls := rfl
    rw [h2, h1, State.word_drawInto, if_neg (by rintro rfl; exact hl List.mem_cons_self)]

theorem State.settle_of_nil {s : State} (h : s.disturbed = []) : s.settle = s := by
  simp [State.settle, h]

/-- The end of a command the host disturbed: free values in the words left open and in W0 and W1, nothing else. -/
theorem State.settle_frame (s : State) :
    ∃ m n v, s.settle = (((s.setMem m).setDraws n).setBlock v).setDisturbed [] ∧ (s.mem.wf → m.wf) ∧
      ∀ l, l ∉ s.disturbed → s.settle.word l = s.word l := by
  rcases hd : s.disturbed with _ | ⟨a, ls⟩
  · refine ⟨s.mem, s.draws, (s.w0, s.w1), ?_, id, fun l _ => by rw [State.settle_of_nil hd]⟩
    rw [State.settle_of_nil hd]
    cases s
    simp_all [State.setMem, State.setDraws, State.setBlock, State.setDisturbed]
  · obtain ⟨m, n, e, hw, hf⟩ := State.drawAll_frame (a :: ls) s
    have hs : s.settle = (((s.drawAll (a :: ls)).setDraws (n + 2)).setBlock
        (Config.freeWord n, Config.freeWord (n + 1))).setDisturbed [] := by
      simp only [State.settle, hd, e]
      rfl
    refine ⟨m, n + 2, (Config.freeWord n, Config.freeWord (n + 1)), by rw [hs, e]; rfl, hw, fun l hl => ?_⟩
    rw [hs]
    exact hf l hl

theorem State.advance_last {s : State} (h : s.atLast = true) : s.advance = s.settle.setBusy false := by
  simp [State.advance, h]

theorem State.advance_notLast {s : State} (h : s.atLast = false) : s.advance = s.setRc s.nextIndex := by
  simp [State.advance, h]

/-- A forward command's step before the last moves RC up (R21). -/
theorem State.advance_forward {s : State} (ho : s.opr ≠ 0b11#2) (h : s.rc ≠ 31#5) :
    s.advance = s.setRc (s.rc + 1#5) := by
  simp [State.advance, State.atLast, State.nextIndex, encode, ho, h, Config.topIndex]

/-- A forward command's last step clears BUSY (R22). -/
theorem State.advance_forward_last {s : State} (ho : s.opr ≠ 0b11#2) (h : s.rc = 31#5) :
    s.advance = s.settle.setBusy false := by
  simp [State.advance, State.atLast, encode, ho, h, Config.topIndex]

/-- DECRYPT's step before the last moves RC down (R21). -/
theorem State.advance_decrypt {s : State} (ho : s.opr = 0b11#2) (h : s.rc ≠ 0#5) :
    s.advance = s.setRc (s.rc - 1#5) := by
  simp [State.advance, State.atLast, State.nextIndex, encode, ho, h]

/-- DECRYPT's last step clears BUSY (R22). -/
theorem State.advance_decrypt_last {s : State} (ho : s.opr = 0b11#2) (h : s.rc = 0#5) :
    s.advance = s.settle.setBusy false := by
  simp [State.advance, State.atLast, encode, ho, h]

/-- The write-back puts W0 and W1 into BOUT and touches no other word (R92, R103). -/
theorem State.word_writeBack (s : State) (l : Loc) :
    s.writeBack.word l = if l = .bout 0 then some s.w0 else if l = .bout 1 then some s.w1 else s.word l := by
  simp only [State.writeBack, State.word_memWrite]

/-- RC before its last value does not wrap (R21). -/
theorem rc_up {r : BitVec 5} (h : r ≠ 31#5) : (r + 1#5).toNat = r.toNat + 1 := by
  have h1 : r.toNat ≠ 31 := fun e => h (BitVec.eq_of_toNat_eq e)
  have h2 := r.isLt
  simp only [BitVec.toNat_add, BitVec.toNat_ofNat]
  omega

theorem rc_down {r : BitVec 5} (h : r ≠ 0#5) : (r - 1#5).toNat = r.toNat - 1 := by
  have h1 : r.toNat ≠ 0 := fun e => h (BitVec.eq_of_toNat_eq e)
  have h2 := r.isLt
  simp only [BitVec.toNat_sub, BitVec.toNat_ofNat]
  omega

/-- Is it the last step: read off OPR and RC (10_state.md R22). -/
theorem State.atLast_congr {s t : State} (ho : t.opr = s.opr) (hr : t.rc = s.rc) : t.atLast = s.atLast := by
  simp [State.atLast, ho, hr]

theorem State.nextIndex_congr {s t : State} (ho : t.opr = s.opr) (hr : t.rc = s.rc) :
    t.nextIndex = s.nextIndex := by
  simp [State.nextIndex, ho, hr]

end Sys2Proof.Machine
end

