-- ==== Sys2Proof/Laws/Step.lean ====
section
/-! SUPPORT. What one transition can do, by the script's next line (Machine/Sequencer.lean), and how runs of the host's
interface unfold. -/

namespace Sys2Proof.Machine

/-- Every command answers a next state from every state. -/
theorem exec_next (i : Instr) (s : State) : ∃ t, exec i s = .next t := by
  cases i <;> exact ⟨_, rfl⟩

theorem coreStep_idle {s : State} (h : s.busy = false) : coreStep s = .next s := by
  simp [coreStep, h]

theorem coreStep_busy {s : State} (h : s.busy = true) : coreStep s = exec (decode s.opr) s := by
  simp [coreStep, h]

theorem hostCmd_idle {s : State} (op : BitVec 2) (h : s.busy = false) : hostCmd op s = exec (decode op) s := by
  simp [hostCmd, h]

theorem hostCmd_busy {s : State} (op : BitVec 2) (h : s.busy = true) : hostCmd op s = .next s := by
  simp [hostCmd, h]

theorem step_of_no_line {s : State} (h : s.script = []) : step s = coreStep s := by
  simp [step, runLine, h]

theorem runFor_zero (s : State) : Safety.runFor 0 s = .next s := rfl

theorem runFor_succ {s t : State} (n : Nat) (h : step s = .next t) :
    Safety.runFor (n + 1) s = Safety.runFor n t := by
  have h' : Sys2Proof.core.step s = .next t := h
  simp only [Safety.runFor, Host.Core.run]
  rw [h']

/-- A run of `n` transitions and one more. -/
theorem runFor_snoc {s t u : State} (n : Nat) (h : Safety.runFor n s = .next t) (ht : step t = .next u) :
    Safety.runFor (n + 1) s = .next u := by
  induction n generalizing s with
  | zero =>
    have e : s = t := Host.Outcome.next.inj h
    subst e
    exact runFor_succ 0 ht
  | succ n ih =>
    simp only [Safety.runFor, Host.Core.run] at h
    split at h
    · rename_i s' hs'
      rw [runFor_succ (n + 1) hs']
      exact ih h
    · exact absurd h (by simp)
    · exact absurd h (by simp)

/-- Decoding the opcode of a command gives the command back (30_encoding.md R53). -/
@[simp] theorem decode_encode_ops : decode 0b00#2 = .keySchedule ∧ decode 0b01#2 = .encrypt ∧
    decode 0b10#2 = .encryptKs ∧ decode 0b11#2 = .decrypt := by decide

end Sys2Proof.Machine
end

