-- ==== Sys2Proof/Laws/Commands.lean ====
section
/-! SUPPORT. The meanings of the commands, each read off once: START while idle, the step action and the sequencer's
share while busy, and the step actions split at the last index. -/

namespace Sys2Proof.Machine

theorem exec_keySchedule_idle {s : State} (h : s.busy = false) :
    exec .keySchedule s = .next (startCommand .keySchedule State.loadKey s) := by
  simp [exec, execKeySchedule, h]

theorem exec_encrypt_idle {s : State} (h : s.busy = false) :
    exec .encrypt s = .next (startCommand .encrypt (fun t => t.loadBlock.loadKey) s) := by
  simp [exec, execEncrypt, h]

theorem exec_encryptKs_idle {s : State} (h : s.busy = false) :
    exec .encryptKs s = .next (startCommand .encryptKs State.loadBlock s) := by
  simp [exec, execEncryptKs, h]

theorem exec_decrypt_idle {s : State} (h : s.busy = false) :
    exec .decrypt s = .next (startCommand .decrypt State.loadBlock s) := by
  simp [exec, execDecrypt, h]

theorem exec_keySchedule_busy {s : State} (h : s.busy = true) :
    exec .keySchedule s = .next (keyScheduleStep s).advance := by
  simp [exec, execKeySchedule, h]

theorem exec_encrypt_busy {s : State} (h : s.busy = true) : exec .encrypt s = .next (encryptStep s).advance := by
  simp [exec, execEncrypt, h]

theorem exec_encryptKs_busy {s : State} (h : s.busy = true) :
    exec .encryptKs s = .next (encryptKsStep s).advance := by
  simp [exec, execEncryptKs, h]

theorem exec_decrypt_busy {s : State} (h : s.busy = true) : exec .decrypt s = .next (decryptStep s).advance := by
  simp [exec, execDecrypt, h]

theorem keyScheduleStep_mid {s : State} (h : s.rc ≠ 31#5) :
    keyScheduleStep s = (s.memWrite (.sch s.rc) s.k1).keyAdvance := by
  have h1 : s.rc.toNat ≠ 31 := fun e => h (BitVec.eq_of_toNat_eq e)
  have h2 := s.rc.isLt
  have h3 : (s.memWrite (.sch s.rc) s.k1).rc.toNat < 31 := by simp only [State.memWrite_rc]; omega
  simp only [keyScheduleStep, if_pos h3]

theorem keyScheduleStep_last {s : State} (h : s.rc = 31#5) :
    keyScheduleStep s = s.memWrite (.sch s.rc) s.k1 := by
  have h3 : ¬ (s.memWrite (.sch s.rc) s.k1).rc.toNat < 31 := by simp [h]
  simp only [keyScheduleStep, if_neg h3]

theorem encryptStep_mid {s : State} (h : s.rc ≠ 31#5) : encryptStep s = (s.blockRound s.k1).keyAdvance := by
  have h1 : ¬ ((s.blockRound s.k1).keyAdvance).rc = Config.topIndex := h
  simp only [encryptStep, if_neg h1]

theorem encryptStep_last {s : State} (h : s.rc = 31#5) :
    encryptStep s = (s.blockRound s.k1).keyAdvance.writeBack := by
  have h1 : ((s.blockRound s.k1).keyAdvance).rc = Config.topIndex := h
  simp only [encryptStep, if_pos h1]

theorem encryptKsStep_mid {s : State} (h : s.rc ≠ 31#5) :
    encryptKsStep s = (s.afterRead (.sch s.rc)).blockRound (s.value (.sch s.rc)) :=
  if_neg (show ¬ ((s.afterRead (.sch s.rc)).blockRound (s.value (.sch s.rc))).rc = Config.topIndex from h)

theorem encryptKsStep_last {s : State} (h : s.rc = 31#5) :
    encryptKsStep s = ((s.afterRead (.sch s.rc)).blockRound (s.value (.sch s.rc))).writeBack :=
  if_pos (show ((s.afterRead (.sch s.rc)).blockRound (s.value (.sch s.rc))).rc = Config.topIndex from h)

theorem decryptStep_mid {s : State} (h : s.rc ≠ 0#5) :
    decryptStep s = (s.afterRead (.sch s.rc)).blockInvRound (s.value (.sch s.rc)) :=
  if_neg (show ¬ ((s.afterRead (.sch s.rc)).blockInvRound (s.value (.sch s.rc))).rc = 0#5 from h)

theorem decryptStep_last {s : State} (h : s.rc = 0#5) :
    decryptStep s = ((s.afterRead (.sch s.rc)).blockInvRound (s.value (.sch s.rc))).writeBack :=
  if_pos (show ((s.afterRead (.sch s.rc)).blockInvRound (s.value (.sch s.rc))).rc = 0#5 from h)

/-- What `advance` does to the sequencer's registers and to the host's side, whatever was left open. -/
theorem State.advance_control (u : State) :
    u.advance.opr = u.opr ∧ u.advance.script = u.script ∧ u.advance.seen = u.seen ∧
      u.advance.busy = (if u.atLast then false else u.busy) ∧
      u.advance.rc = (if u.atLast then u.rc else u.nextIndex) := by
  cases h : u.atLast
  · rw [State.advance_notLast h]; simp
  · rw [State.advance_last h]
    obtain ⟨m, n, v, e, -⟩ := u.settle_frame
    rw [e]
    simp

/-- A START (R24), whichever command: what it sets and what it leaves. -/
theorem exec_idle_frame (i : Instr) {s : State} (h : s.busy = false) :
    ∃ t, exec i s = .next t ∧ t.busy = true ∧ t.opr = encode i ∧ t.rc = firstIndex i ∧ t.mem = s.mem ∧
      t.script = s.script ∧ t.seen = s.seen ∧ t.disturbed = s.disturbed := by
  cases i
  · exact ⟨_, exec_keySchedule_idle h, rfl, rfl, rfl, rfl, rfl, rfl, rfl⟩
  · exact ⟨_, exec_encrypt_idle h, rfl, rfl, rfl, rfl, rfl, rfl, rfl⟩
  · exact ⟨_, exec_encryptKs_idle h, rfl, rfl, rfl, rfl, rfl, rfl, rfl⟩
  · exact ⟨_, exec_decrypt_idle h, rfl, rfl, rfl, rfl, rfl, rfl, rfl⟩

/-- A step (R22), whichever command: a step action `u`, which leaves the sequencer and the host's side alone and changes
no word but the command's output of this step, and then `advance`. -/
theorem exec_busy_frame (i : Instr) {s : State} (h : s.busy = true) :
    ∃ u : State, exec i s = .next u.advance ∧ u.opr = s.opr ∧ u.rc = s.rc ∧ u.busy = s.busy ∧
      u.script = s.script ∧ u.seen = s.seen ∧ u.disturbed = s.disturbed ∧ (s.mem.wf → u.mem.wf) ∧
      ∀ l, l ∉ (if i = .keySchedule then [Loc.sch s.rc] else [.bout 0, .bout 1]) → u.word l = s.word l := by
  have hb : ∀ (t : State) (w : t.mem.wf), t.writeBack.mem.wf := fun t w =>
    State.wf_memWrite (s := t.memWrite (.bout 1) t.w1) _ _ (State.wf_memWrite (.bout 1) t.w1 w)
  cases i with
  | keySchedule =>
    refine ⟨_, exec_keySchedule_busy h, ?_⟩
    by_cases hr : s.rc = 31#5
    · rw [keyScheduleStep_last hr]
      exact ⟨rfl, rfl, rfl, rfl, rfl, rfl, fun w => State.wf_memWrite _ _ w,
        fun l hl => State.word_memWrite_other _ _ (by simpa using hl)⟩
    · rw [keyScheduleStep_mid hr]
      exact ⟨rfl, rfl, rfl, rfl, rfl, rfl, fun w => State.wf_memWrite _ _ w,
        fun l hl => State.word_memWrite_other _ _ (by simpa using hl)⟩
  | encrypt =>
    refine ⟨_, exec_encrypt_busy h, ?_⟩
    by_cases hr : s.rc = 31#5
    · rw [encryptStep_last hr]
      refine ⟨rfl, rfl, rfl, rfl, rfl, rfl, fun w => hb _ w, fun l hl => ?_⟩
      simp only [reduceCtorEq, if_false, List.mem_cons, List.not_mem_nil, or_false, not_or] at hl
      simp [State.word_writeBack, hl]
    · rw [encryptStep_mid hr]
      exact ⟨rfl, rfl, rfl, rfl, rfl, rfl, id, fun _ _ => rfl⟩
  | encryptKs =>
    refine ⟨_, exec_encryptKs_busy h, ?_⟩
    by_cases hr : s.rc = 31#5
    · rw [encryptKsStep_last hr]
      refine ⟨rfl, rfl, rfl, rfl, rfl, rfl, fun w => hb _ w, fun l hl => ?_⟩
      simp only [reduceCtorEq, if_false, List.mem_cons, List.not_mem_nil, or_false, not_or] at hl
      simp [State.word_writeBack, hl]
    · rw [encryptKsStep_mid hr]
      exact ⟨rfl, rfl, rfl, rfl, rfl, rfl, id, fun _ _ => rfl⟩
  | decrypt =>
    refine ⟨_, exec_decrypt_busy h, ?_⟩
    by_cases hr : s.rc = 0#5
    · rw [decryptStep_last hr]
      refine ⟨rfl, rfl, rfl, rfl, rfl, rfl, fun w => hb _ w, fun l hl => ?_⟩
      simp only [reduceCtorEq, if_false, List.mem_cons, List.not_mem_nil, or_false, not_or] at hl
      simp [State.word_writeBack, hl]
    · rw [decryptStep_mid hr]
      exact ⟨rfl, rfl, rfl, rfl, rfl, rfl, id, fun _ _ => rfl⟩

end Sys2Proof.Machine
end

