-- ==== Sys2Proof/Laws/Host.lean ====
section
/-! SUPPORT. What the host's moves can do, said once per shared operation (Machine/Sequencer.lean). -/

namespace Sys2Proof.Machine

/-- A WR line's value: the Word it stands for, and at most a free value used up. -/
theorem State.hostVal_cases (s : State) (v : HostVal) :
    ∃ x n, s.hostVal v = (x, s.setDraws n) ∧ Safety.StandsFor s v x ∧ (∀ a, v = .lit a → n = s.draws) := by
  cases v with
  | lit a => exact ⟨a, s.draws, rfl, ⟨by simp, by simp⟩, fun _ _ => rfl⟩
  | readOf l =>
    cases h : newestRead l s.seen with
    | some v =>
      refine ⟨v, s.draws, by simp [State.hostVal, h, State.setDraws], ⟨by simp, ?_⟩, by simp⟩
      rintro l' a ⟨⟩ h'
      simpa [h] using h'
    | none =>
      refine ⟨_, s.draws + 1, by simp only [State.hostVal, h]; rfl, ⟨by simp, ?_⟩, by simp⟩
      rintro l' a ⟨⟩ h'
      simp [h] at h'

theorem State.hostPut_idle {s : State} (l : Loc) (v : Word) (h : s.busy = false) : s.hostPut l v = s.memWrite l v := by
  simp [State.hostPut, h]

theorem State.hostPut_input {s : State} {l : Loc} (v : Word) (hl : Safety.isInput l = true) :
    s.hostPut l v = s.memWrite l v := by
  cases l <;> simp_all [State.hostPut, Safety.isInput]

theorem State.hostPut_output_busy {s : State} {l : Loc} (v : Word) (h : s.busy = true)
    (hl : Safety.isInput l = false) : s.hostPut l v = s.disturb l := by
  cases l <;> simp_all [State.hostPut, Safety.isInput]

/-- What a disturbing write leaves open (93_implementation_defined.md U4). -/
theorem State.mem_disturb (s : State) (l l' : Loc) :
    l' ∈ (s.disturb l).disturbed ↔ l' ∈ s.disturbed ∨ l' = l ∨ l' ∈ s.stillToWrite := by
  simp [State.disturb]

/-- The words a running command still has to write are never words of KEY or BIN. -/
theorem State.stillToWrite_output (s : State) : ∀ l ∈ s.stillToWrite, Safety.isInput l = false := by
  intro l hl
  unfold State.stillToWrite at hl
  split at hl
  · simp only [List.mem_map] at hl
    obtain ⟨a, -, rfl⟩ := hl
    rfl
  all_goals
    simp only [List.mem_cons, List.not_mem_nil, or_false] at hl
    rcases hl with rfl | rfl <;> rfl

end Sys2Proof.Machine
end

