-- ==== Sys2Proof/Laws/PerInstr.lean ====
section
/-! SUPPORT. A statement about every command as syntax, one lemma per constructor (LAWS.json). -/

/-- The command's opcode has the two bits of CMD and is read back as the command (30_encoding.md R53, R54). -/
def Sys2Proof.Laws.Encoding.Statement (i : Sys2Proof.Instr) : Prop :=
  i.wellFormed = true ∧ Sys2Proof.decode (Sys2Proof.encode i) = i ∧ Sys2Proof.cmdWordOk (Sys2Proof.encode i).toNat = true

theorem Sys2Proof.Laws.Encoding.keySchedule : Sys2Proof.Laws.Encoding.Statement .keySchedule := by
  unfold Sys2Proof.Laws.Encoding.Statement; decide

theorem Sys2Proof.Laws.Encoding.encrypt : Sys2Proof.Laws.Encoding.Statement .encrypt := by
  unfold Sys2Proof.Laws.Encoding.Statement; decide

theorem Sys2Proof.Laws.Encoding.encryptKs : Sys2Proof.Laws.Encoding.Statement .encryptKs := by
  unfold Sys2Proof.Laws.Encoding.Statement; decide

theorem Sys2Proof.Laws.Encoding.decrypt : Sys2Proof.Laws.Encoding.Statement .decrypt := by
  unfold Sys2Proof.Laws.Encoding.Statement; decide
end

