-- ==== Sys2Proof/Tests/Slice0.lean ====
section
/-! SUPPORT. Tests with expected values from spec/ (each comment names the place), and for every statement of
Certificates/Slice0/Obligations.lean that has hypotheses a witness: concrete states and operands that meet them. -/

namespace Sys2Proof.Tests

open Sys2Proof Sys2Proof.Machine Sys2Proof.Safety

/-! ### Well-formedness: the one check refuses an ill-formed number (10_state.md R24) -/

theorem test_cmdWordOk_refuses_bit_2 : cmdWordOk 0b100 = false := by decide
theorem test_cmdWordOk_accepts_3 : cmdWordOk 0b11 = true := by decide
theorem test_decodeNat_refuses_bit_2 : decodeNat 0b100 = .error .bitsAboveOp := by rfl
theorem test_decodeTableWord_refuses_bit_7 : decodeTableWord 8 0b10000011 = none := by decide

/-! ### Decoding: the rows of 30_encoding.md R53, bit by bit -/

theorem test_word_00_is_key_schedule : decodeTableWord 8 0b00000000 = some .keySchedule := by decide
theorem test_word_01_is_encrypt : decodeTableWord 8 0b00000001 = some .encrypt := by decide
theorem test_word_10_is_encrypt_ks : decodeTableWord 8 0b00000010 = some .encryptKs := by decide
theorem test_word_11_is_decrypt : decodeTableWord 8 0b00000011 = some .decrypt := by decide

/-! ### ROUND and INV_ROUND: rows of the table of 40_round.md R79, and the intermediate values of R73 and R75 -/

theorem test_round_bit_8_to_0 : fwdRound 0x100 0 0 = (1, 1) := by decide
theorem test_round_bit_0_to_56 : fwdRound 1 0 0 = (0x0100000000000000, 0x0100000000000000) := by decide
theorem test_round_second_operand : fwdRound 0 1 0 = (1, 9) := by decide
theorem test_round_subkey : fwdRound 0 0 1 = (1, 1) := by decide
theorem test_round_sum_wraps : fwdRound 0xffffffffffffffff 1 0 = (0, 8) := by decide
theorem test_round_all_ones : fwdRound 0xffffffffffffffff 0xffffffffffffffff 0xffffffffffffffff =
    (1, 0xfffffffffffffffe) := by decide
theorem test_round_left_rotation_wraps : fwdRound 0 0xe000000000000000 0 =
    (0xe000000000000000, 0xe000000000000007) := by decide
theorem test_round_top_bits : fwdRound 0x8000000000000000 0x8000000000000000 0 =
    (0x8080000000000000, 0x8080000000000004) := by decide
theorem test_invRound_borrow_wraps : invRound 1 0 0 = (0x1e0, 0x2000000000000000) := by decide
theorem test_round_first_of_vector : fwdRound 0x6c61766975716520 0x7469206564616d20 0x0706050403020100 =
    (0x93d384dfced4df85, 0x309a87f4eddfb686) := by decide
theorem test_invRound_first_of_vector : invRound 0xa65d985179783265 0x7860fedf5c570d18 0x2199c870db8ec93f =
    (0xfca34fde51136bcb, 0xbbc7acd1c4a5e7ef) := by decide

/-! ### The source's vectors (95_test_vectors.md T2, T3, T4), on the function forms -/

/-- The key of T2. -/
def vectorKey : Pair := (0x0f0e0d0c0b0a0908, 0x0706050403020100)
/-- The plaintext and the ciphertext of T3. -/
def vectorPt : Pair := (0x6c61766975716520, 0x7469206564616d20)
def vectorCt : Pair := (0xa65d985179783265, 0x7860fedf5c570d18)

theorem test_vector_schedule : ks vectorKey 31#5 = 0x2199c870db8ec93f := by decide +kernel
theorem test_vector_encrypt : enc vectorPt vectorKey = vectorCt := by decide +kernel
theorem test_vector_encrypt_ks : encKs vectorPt (ks vectorKey) = vectorCt := by decide +kernel
theorem test_vector_decrypt : dec vectorCt (ks vectorKey) = vectorPt := by decide +kernel
/-- 42_encrypt.md R99 (a). -/
theorem test_zero_key_zero_plaintext : enc (0, 0) (0, 0) = (0x665c02fddcf38d76, 0x208ed74c037f0a6d) := by
  decide +kernel
/-- 43_decrypt.md R105 (a): the forward order with INV_ROUND is no decryption. -/
theorem test_decrypt_order_matters : dec vectorCt (fun i => ks vectorKey (31#5 - i)) =
    (0x023bf844d9bb8944, 0x720bc0dbb9484929) := by decide +kernel

/-! ### One transition of each command: START and one step -/

/-- Every buffer word written: location number n holds n + 1. -/
def fullMem : Memory := (List.range 38).map (fun a => (a, BitVec.ofNat 64 (a + 1)))

/-- Idle, every word written. -/
def idle : State := { State.reset with mem := fullMem }

/-- In step `i` of the command with opcode `op`. -/
def busyAt (op : BitVec 2) (i : BitVec 5) : State := { idle with busy := true, opr := op, rc := i }

/-- Idle with the host about to make the moves. -/
def hostAt (s : State) (r : List ScriptLine) : State := { s with script := r }

/-- The next state's value of a field. -/
def after {α : Type} (r : Host.Outcome State Fault Refusal) (f : State → α) : Option α :=
  match r with
  | .next t => some (f t)
  | .fault _ => none
  | .refused _ => none

theorem test_start_key_schedule : after (exec .keySchedule idle) (fun t => (t.k0, t.k1, t.rc, t.opr, t.busy)) =
    some (1, 2, 0, 0, true) := by decide
/-- 41_key_schedule.md R87 (d), step 1. -/
theorem test_step_key_schedule :
    let s := { busyAt 0 1 with k0 := 0x0f1513110f0d0b09, k1 := 0x37253b31171d0309 }
    after (exec .keySchedule s) (fun t => (t.word (.sch 1), t.k0, t.k1, t.rc)) =
      some (some 0x37253b31171d0309, 0x40345044282c1015, 0xf91d89cc90c4085c, 2) := by decide

theorem test_start_encrypt : after (exec .encrypt idle) (fun t => ((t.w0, t.w1, t.k0, t.k1), t.rc, t.opr, t.busy)) =
    some ((3, 4, 1, 2), 0, 1, true) := by decide
/-- 42_encrypt.md R99, step 0. -/
theorem test_step_encrypt :
    let s := { busyAt 1 0 with w0 := vectorPt.1, w1 := vectorPt.2, k0 := vectorKey.1, k1 := vectorKey.2 }
    after (exec .encrypt s) (fun t => (t.w0, t.w1, t.k0, t.k1, t.rc)) =
      some (0x93d384dfced4df85, 0x309a87f4eddfb686, 0x0f1513110f0d0b09, 0x37253b31171d0309, 1) := by decide

theorem test_start_encrypt_ks : after (exec .encryptKs idle) (fun t => (t.w0, t.w1, t.k1, t.rc, t.opr, t.busy)) =
    some (3, 4, 0, 0, 2, true) := by decide
/-- 42_encrypt.md R97 with R99's step 0, whose subkey is SCH[0]. -/
theorem test_step_encrypt_ks :
    let s := { (busyAt 2 0).memWrite (.sch 0) 0x0706050403020100 with w0 := vectorPt.1, w1 := vectorPt.2 }
    after (exec .encryptKs s) (fun t => (t.w0, t.w1, t.k1, t.rc)) =
      some (0x93d384dfced4df85, 0x309a87f4eddfb686, 0, 1) := by decide

theorem test_start_decrypt : after (exec .decrypt idle) (fun t => (t.w0, t.w1, t.k1, t.rc, t.opr, t.busy)) =
    some (3, 4, 0, 31, 3, true) := by decide
/-- 43_decrypt.md R105, step 31. -/
theorem test_step_decrypt :
    let s := { (busyAt 3 31).memWrite (.sch 31) 0x2199c870db8ec93f with w0 := vectorCt.1, w1 := vectorCt.2 }
    after (exec .decrypt s) (fun t => (t.w0, t.w1, t.k1, t.rc)) =
      some (0xfca34fde51136bcb, 0xbbc7acd1c4a5e7ef, 0, 30) := by decide

/-- 10_state.md R24: the first transition after a placed command word is its START. -/
theorem test_placed_words_start : ∀ w : Fin 4,
    after (step (State.reset.withFetchWord 8 w.val)) (fun t => (t.busy, t.opr.toNat)) = some (true, w.val) := by decide

/-! ### Host moves -/

/-- 43_decrypt.md R103, 42_encrypt.md R92: index 0 from W0, index 1 from W1. -/
theorem test_write_back_keeps_index :
    let s := { busyAt 3 0 with w0 := 0, w1 := 0, mem := (busyAt 3 0).mem.put 6 0 }
    after (exec .decrypt s) (fun t => (t.word (.bout 0), t.word (.bout 1), t.busy)) =
      some (some 0, some 0, false) := by decide
/-- 10_state.md R24: a CMD write while BUSY = 1 is lost. -/
theorem test_cmd_while_busy_is_lost : step (hostAt (busyAt 1 5) [.cmd 3]) = .next (busyAt 1 5) := by rfl
/-- 70_reset_and_hazards.md R137: RESET during KEY_SCHEDULE. -/
theorem test_reset_ends_command :
    after (step (hostAt (busyAt 0 9) [.reset])) (fun t => (t.busy, t.word (.sch 3))) = some (false, none) := by rfl
/-- 20_memory.md R51: a write to KEY during a command. -/
theorem test_write_key_while_busy :
    after (step (hostAt (busyAt 1 5) [.wr (.key 1) (.lit 7)])) (fun t => (t.word (.key 1), t.k1, t.disturbed)) =
      some (some 7, 0, []) := by decide
/-- 93_implementation_defined.md U4: a write to BOUT in the last step of ENCRYPT. -/
theorem test_write_bout_while_busy :
    after (step (hostAt (busyAt 1 31) [.wr (.bout 0) (.lit 7)])) (fun t =>
      (written t (.bout 0), (outputs .encrypt).all (fun l => l ∈ t.disturbed))) = some (true, true) := by decide

/-! ### Witnesses -/

theorem witness_Sub64IsDifferenceModulo : (5 : Word).toNat ≤ (5 : Word).toNat ∧ (4 : Word).toNat < (5 : Word).toNat := by
  decide
theorem witness_Xor64IsBitwise : (63 : Nat) < 64 := by decide
theorem witness_Ror64RotatesRight : (0 < 1 ∧ 1 < 64) ∧ (0 < 63 ∧ 63 < 64) ∧ 0 < 64 := by decide
theorem witness_Rol64RotatesLeft : (0 < 1 ∧ 1 < 64) ∧ (0 < 63 ∧ 63 < 64) ∧ 0 < 64 := by decide
theorem witness_PrimitivesUndoEachOther : (0 < 1 ∧ 1 < 64) ∧ (0 < 63 ∧ 63 < 64) := by decide
theorem witness_DecodeEncodeAgree : decodeNat 3 = .ok .decrypt ∧ decodeNat 4 = .error .bitsAboveOp := ⟨rfl, rfl⟩
theorem witness_MemReadReturnsLatestMemWrite :
    Loc.sch 31 ≠ Loc.key 0 ∧ idle.word (.key 0) = some 1 ∧ idle.word (.sch 31) = some 38 := by decide
theorem witness_BuffersHaveOneForm : fullMem.wf ∧ Memory.wf [] ∧ ∀ a, fullMem.find a = fullMem.find a :=
  ⟨by decide +kernel, by decide, fun _ => rfl⟩
theorem witness_ResetEndsCommand : (hostAt (busyAt 1 31) [.reset]).script = .reset :: [] := rfl
theorem witness_StepRunsDecodedCommand :
    ((busyAt 3 0).busy = true ∧ (busyAt 3 0).script = []) ∧
    ((hostAt (busyAt 0 31) [.pass]).busy = true ∧ (hostAt (busyAt 0 31) [.pass]).script = .pass :: []) ∧
    ((hostAt (busyAt 2 0) [.wait]).busy = true ∧ (hostAt (busyAt 2 0) [.wait]).script = .wait :: []) ∧
    ((hostAt idle [.cmd 3]).busy = false ∧ (hostAt idle [.cmd 3]).script = .cmd 3 :: []) := by decide
theorem witness_CmdWriteWhileBusyIsIgnored :
    (hostAt (busyAt 1 0) [.cmd 1]).busy = true ∧ (hostAt (busyAt 1 0) [.cmd 1]).script = .cmd 1 :: [] := by decide
theorem witness_StatusReadReturnsBusy :
    (hostAt idle [.status]).script = .status :: [] ∧ (hostAt (busyAt 1 0) [.status]).script = .status :: [] := by decide
theorem witness_IdleCoreChangesNothing :
    (idle.busy = false ∧ idle.script = []) ∧
    ((hostAt idle [.pass]).busy = false ∧ (hostAt idle [.pass]).script = .pass :: []) := by decide
theorem witness_KeyScheduleStart :
    idle.busy = false ∧ idle.word (.key 0) = some 1 ∧ idle.word (.key 1) = some 2 := by decide
theorem witness_EncryptStart :
    idle.busy = false ∧ idle.word (.bin 0) = some 3 ∧ idle.word (.bin 1) = some 4 ∧
    idle.word (.key 0) = some 1 ∧ idle.word (.key 1) = some 2 := by decide
theorem witness_EncryptKsStart :
    idle.busy = false ∧ idle.word (.bin 0) = some 3 ∧ idle.word (.bin 1) = some 4 := by decide
theorem witness_DecryptStart :
    idle.busy = false ∧ idle.word (.bin 0) = some 3 ∧ idle.word (.bin 1) = some 4 := by decide
/-- The first step, the step before the last, and the last. -/
theorem witness_KeyScheduleStep : ∀ i ∈ [0#5, 30#5, 31#5],
    (busyAt 0 i).busy = true ∧ (busyAt 0 i).opr = 0b00#2 ∧ ((busyAt 0 i).rc = 31#5 → (busyAt 0 i).disturbed = []) ∧
    (busyAt 0 i).rc = i := by decide
theorem witness_EncryptStep : ∀ i ∈ [0#5, 30#5, 31#5],
    (busyAt 1 i).busy = true ∧ (busyAt 1 i).opr = 0b01#2 ∧ ((busyAt 1 i).rc = 31#5 → (busyAt 1 i).disturbed = []) ∧
    (busyAt 1 i).rc = i := by decide
theorem witness_EncryptKsStep : ∀ i ∈ [0#5, 30#5, 31#5],
    (busyAt 2 i).busy = true ∧ (busyAt 2 i).opr = 0b10#2 ∧ ((busyAt 2 i).rc = 31#5 → (busyAt 2 i).disturbed = []) ∧
    (busyAt 2 i).rc = i ∧ (busyAt 2 i).word (.sch i) = some (BitVec.ofNat 64 (i.toNat + 7)) := by decide
theorem witness_DecryptStep : ∀ i ∈ [31#5, 1#5, 0#5],
    (busyAt 3 i).busy = true ∧ (busyAt 3 i).opr = 0b11#2 ∧ ((busyAt 3 i).rc = 0#5 → (busyAt 3 i).disturbed = []) ∧
    (busyAt 3 i).rc = i ∧ (busyAt 3 i).word (.sch i) = some (BitVec.ofNat 64 (i.toNat + 7)) := by decide
/-- A Word written in the line, and a Word the host has read. -/
theorem witness_HostWriteWhileIdle :
    (hostAt idle [.wr (.sch 31) (.lit 7)]).busy = false ∧
    (hostAt idle [.wr (.sch 31) (.lit 7)]).script = .wr (.sch 31) (.lit 7) :: [] ∧
    (let s := hostAt { idle with seen := [.word (.bout 0) 9] } [.wr (.bin 0) (.readOf (.bout 0))]
     s.busy = false ∧ s.script = .wr (.bin 0) (.readOf (.bout 0)) :: [] ∧ newestRead (.bout 0) s.seen = some 9) := by
  decide
theorem witness_HostReadReturnsWord :
    (hostAt idle [.rd (.bout 1)]).busy = false ∧ (hostAt idle [.rd (.bout 1)]).script = .rd (.bout 1) :: [] ∧
    (hostAt idle [.rd (.bout 1)]).word (.bout 1) = some 6 ∧
    (hostAt State.reset [.rd (.sch 31)]).script = .rd (.sch 31) :: [] := by decide
theorem witness_HostWriteOfInputWhileBusy :
    (hostAt (busyAt 1 0) [.wr (.key 0) (.lit 7)]).busy = true ∧ isInput (.key 0) = true ∧ isInput (.bin 1) = true ∧
    (hostAt (busyAt 1 0) [.wr (.key 0) (.lit 7)]).script = .wr (.key 0) (.lit 7) :: [] := by decide
theorem witness_HostWriteOfOutputWhileBusy :
    (hostAt (busyAt 0 31) [.wr (.sch 31) (.lit 7)]).busy = true ∧ isInput (.sch 31) = false ∧
    isInput (.bout 0) = false ∧
    (hostAt (busyAt 0 31) [.wr (.sch 31) (.lit 7)]).script = .wr (.sch 31) (.lit 7) :: [] := by decide
/-- A forward command at 31 and DECRYPT at 0. -/
theorem witness_DisturbedCommandEnds :
    (let s := { busyAt 1 31 with disturbed := [.bout 0] }
     s.busy = true ∧ s.opr = encode .encrypt ∧ s.rc = (if Instr.encrypt = .decrypt then 0#5 else 31#5) ∧
       s.disturbed ≠ []) ∧
    (let s := { busyAt 3 0 with disturbed := [.sch 31] }
     s.busy = true ∧ s.opr = encode .decrypt ∧ s.rc = (if Instr.decrypt = .decrypt then 0#5 else 31#5) ∧
       s.disturbed ≠ []) := by decide
theorem witness_WaitPollsUntilIdle :
    ((hostAt (busyAt 1 31) [.wait]).script = .wait :: [] ∧ (hostAt (busyAt 1 31) [.wait]).busy = true) ∧
    ((hostAt idle [.wait]).script = .wait :: [] ∧ (hostAt idle [.wait]).busy = false) := by decide
theorem witness_MovbCopiesResultToInput :
    (hostAt idle movb).busy = false ∧ HoldsBout (hostAt idle movb) (5, 6) ∧ (hostAt idle movb).script = movb ++ [] := by
  decide
theorem witness_LoadLinesFillBuffers :
    ((hostAt idle (loadk (1, 2))).busy = false ∧ (hostAt idle (loadk (1, 2))).script = loadk (1, 2) ++ []) ∧
    ((hostAt idle (loadb (1, 2))).busy = false ∧ (hostAt idle (loadb (1, 2))).script = loadb (1, 2) ++ []) ∧
    ((hostAt idle (loads (fun _ => 3))).busy = false ∧
      (hostAt idle (loads (fun _ => 3))).script = loads (fun _ => 3) ++ []) :=
  ⟨⟨rfl, rfl⟩, ⟨rfl, rfl⟩, ⟨rfl, (List.append_nil _).symm⟩⟩
theorem witness_RunLineRunsCommand :
    (hostAt idle (runLines .decrypt)).busy = false ∧ (hostAt idle (runLines .decrypt)).disturbed = [] ∧
    (hostAt idle (runLines .decrypt)).script = runLines .decrypt ++ [] := by decide
theorem witness_EveryCommandTakes32Steps : idle.busy = false ∧ idle.script = [] ∧ 0 ≤ 32 ∧ 32 ≤ 32 := by decide
theorem witness_BusyAlwaysFalls : ∀ s ∈ [busyAt 3 0, busyAt 3 31, busyAt 0 0, busyAt 2 31],
    s.busy = true ∧ s.script = [] := by decide
theorem witness_BuffersDuringCommand :
    idle.busy = false ∧ idle.script = [] ∧ 0 < 32 ∧ 31 < 32 ∧ Instr.encrypt ≠ .keySchedule := by decide
theorem witness_EveryCommandEndsOnAnyContents : Idle State.reset ∧ Idle idle := by decide
theorem witness_KeyScheduleFunctionForm : Idle idle ∧ HoldsKey idle (1, 2) := by decide
theorem witness_EncryptFunctionForm : Idle idle ∧ HoldsBin idle (3, 4) ∧ HoldsKey idle (1, 2) := by decide

/-- The schedule that `idle` holds. -/
def fullSch : Schedule := fun i => BitVec.ofNat 64 (i.toNat + 7)

theorem holdsSch_idle : HoldsSch idle fullSch := by decide +kernel
theorem witness_EncryptKsFunctionForm : Idle idle ∧ HoldsBin idle (3, 4) ∧ HoldsSch idle fullSch :=
  ⟨by decide, by decide, holdsSch_idle⟩
theorem witness_DecryptFunctionForm : Idle idle ∧ HoldsBin idle (3, 4) ∧ HoldsSch idle fullSch :=
  ⟨by decide, by decide, holdsSch_idle⟩
/-- The first state, and for whatever block BOUT then holds a second one. -/
theorem witness_MachineRoundTrip : (Idle idle ∧ HoldsBin idle (3, 4) ∧ HoldsSch idle fullSch) ∧
    ∀ ct : Pair, ∃ s2 : State, Idle s2 ∧ HoldsBin s2 ct ∧ HoldsSch s2 fullSch :=
  ⟨witness_EncryptKsFunctionForm, fun ct =>
    ⟨(idle.memWrite (.bin 0) ct.1).memWrite (.bin 1) ct.2, ⟨rfl, rfl, rfl⟩, ⟨rfl, rfl⟩, fun i => by
      rw [State.word_memWrite_other _ _ (by simp), State.word_memWrite_other _ _ (by simp)]
      exact holdsSch_idle i⟩⟩
theorem witness_MachineEquivalence : Idle idle ∧ HoldsBin idle (3, 4) ∧ HoldsKey idle (1, 2) := by decide
/-- For every command, two states that differ in every hidden register. -/
theorem witness_ResultDependsOnOperandsOnly : ∀ i ∈ [Instr.keySchedule, .encrypt, .encryptKs, .decrypt],
    let s' := { idle with w0 := 1, w1 := 2, k0 := 3, k1 := 4, opr := 1, rc := 5 }
    Idle idle ∧ Idle s' ∧ ∀ l ∈ reads i, written idle l = true ∧ s'.word l = idle.word l := by decide +kernel
theorem inv_busyAt (op : BitVec 2) (i : BitVec 5) : MachineInv (busyAt op i) :=
  ⟨witness_BuffersHaveOneForm.1, fun _ => rfl, by simp [busyAt, idle, State.reset]⟩
theorem witness_CoreNeverChangesInputs : MachineInv (busyAt 1 31) ∧ (busyAt 1 31).script = [] ∧
    (∃ t, step (busyAt 1 31) = .next t) ∧ isInput (.key 0) = true :=
  ⟨inv_busyAt _ _, rfl, ⟨_, rfl⟩, rfl⟩
/-- A step, a CMD write that is taken, and the last step. -/
theorem witness_OprIsLatchedAndBusyHasThreeWriters :
    (∃ t, step (busyAt 3 1) = .next t ∧ (busyAt 3 1).busy = true ∧ ∀ r, (busyAt 3 1).script ≠ .reset :: r) ∧
    (∃ t, step (hostAt idle [.cmd 3]) = .next t ∧ (hostAt idle [.cmd 3]).busy = false ∧ t.busy = true ∧
      ∀ r, (hostAt idle [.cmd 3]).script ≠ .reset :: r) ∧
    (∃ t, step (busyAt 3 0) = .next t ∧ (busyAt 3 0).busy = true ∧ t.busy = false ∧
      ∀ r, (busyAt 3 0).script ≠ .reset :: r) :=
  ⟨⟨_, rfl, rfl, by simp [busyAt, idle, State.reset]⟩, ⟨_, rfl, rfl, rfl, by simp [hostAt]⟩,
    ⟨_, rfl, rfl, rfl, by simp [busyAt, idle, State.reset]⟩⟩
theorem witness_StepKeepsInvariant : MachineInv (busyAt 0 31) ∧ ∃ t, step (busyAt 0 31) = .next t :=
  ⟨inv_busyAt _ _, _, rfl⟩
/-- A running ENCRYPT_KS, and an idle host about to start it. -/
theorem witness_DisciplinedStepIsDeterminate : ∀ s ∈ [busyAt 2 0, hostAt idle [.cmd 2]],
    hostOk s = true ∧ hostKnown s = true ∧ runningOk s = true ∧ after (step s) (fun t => t.busy) = some true := by
  decide +kernel

end Sys2Proof.Tests
end

section
/-! PROOFS. The statements on the state and the sequencer (10_state.md): one transition by the script's next line, what
it does to OPR, RC and BUSY and to KEY and BIN, the 32 steps of a command, and a command's data as a function of its
operands. The `_result` lemmas say what a command as a whole leaves, its frame included. -/

namespace Sys2Proof.Machine

open Safety

/-! ### Decoding, and one transition by the script's next line -/

theorem decode_encode (i : Instr) : decode (encode i) = i := by cases i <;> rfl

theorem encode_decode : ∀ op, encode (decode op) = op := by decide

theorem step_of_pass {s : State} {r : List ScriptLine} (h : s.script = .pass :: r) :
    step s = coreStep (s.setScript r) := by
  simp [step, runLine, h]

theorem step_of_wait_busy {s : State} {r : List ScriptLine} (hb : s.busy = true) (h : s.script = .wait :: r) :
    step s = coreStep s := by
  simp [step, runLine, h, hb]

theorem step_of_wait_idle {s : State} {r : List ScriptLine} (hb : s.busy = false) (h : s.script = .wait :: r) :
    step s = .next (hostStatus (s.setScript r)) := by
  simp [step, runLine, h, hb]

theorem step_of_cmd {s : State} {op : BitVec 2} {r : List ScriptLine} (h : s.script = .cmd op :: r) :
    step s = hostCmd op (s.setScript r) := by
  simp [step, runLine, h]

theorem step_of_status {s : State} {r : List ScriptLine} (h : s.script = .status :: r) :
    step s = .next (hostStatus (s.setScript r)) := by
  simp [step, runLine, h]

theorem step_of_wr {s : State} {l : Loc} {v : HostVal} {r : List ScriptLine} (h : s.script = .wr l v :: r) :
    step s = .next (hostWrite l v (s.setScript r)) := by
  simp [step, runLine, h]

theorem step_of_rd {s : State} {l : Loc} {r : List ScriptLine} (h : s.script = .rd l :: r) :
    step s = .next (hostRead l (s.setScript r)) := by
  simp [step, runLine, h]

/-- Where no host move is due and BUSY = 1, the transition is a step of the command in OPR (R22, R151). -/
theorem step_of_busy {s : State} (h : s.script = []) (hb : s.busy = true) : step s = exec (decode s.opr) s := by
  rw [step_of_no_line h, coreStep_busy hb]

/-- Settles O15: each part of the reset state is read off its definition. -/
theorem resetStateIsIdle : Obligations.ResetStateIsIdle :=
  ⟨rfl, rfl, fun _ => rfl⟩

/-- Settles O18: the four lines under which a command runs, one clause each. -/
theorem stepRunsDecodedCommand : Obligations.StepRunsDecodedCommand := by
  refine ⟨fun s hb h => step_of_busy h hb, fun s r hb h => ?_, fun s r hb h => ?_, fun s op r hb h => ?_⟩
  · rw [step_of_pass h, coreStep_busy (by simpa using hb), State.setScript_opr]
  · rw [step_of_wait_busy hb h, coreStep_busy hb]
  · rw [step_of_cmd h, hostCmd_idle op (by simpa using hb)]

/-- The word of a command is placed as the write of its opcode. -/
theorem State.withFetchWord_encode (s : State) (i : Instr) :
    s.withFetchWord 8 (encode i).toNat = s.withCmd (encode i) := by
  cases i <;> rfl

/-- Settles O19: the placed line is a CMD write in an idle state, and using it up restores the script. -/
theorem placedWordRunsNext : Obligations.PlacedWordRunsNext := by
  intro s i
  have hline : (s.withCmd (encode i)).script = .cmd (encode i) :: s.script := rfl
  rw [State.withFetchWord_encode, step_of_cmd hline, hostCmd_idle _ rfl, decode_encode]
  rfl

/-- Settles O20: the sequencer does not take a command while BUSY = 1. -/
theorem cmdWriteWhileBusyIsIgnored : Obligations.CmdWriteWhileBusyIsIgnored := by
  intro s op r hb h
  rw [step_of_cmd h, hostCmd_busy op (by simpa using hb)]

theorem State.statusWord_eq (s : State) : s.statusWord = if s.busy then 1#1 else 0#1 := by
  cases h : s.busy <;> simp [State.statusWord, h]

/-- Settles O21: STATUS carries BUSY, and the poll adds to what the host has seen only. -/
theorem statusReadReturnsBusy : Obligations.StatusReadReturnsBusy := by
  intro s r h
  rw [step_of_status h, hostStatus, State.statusWord_eq, State.setScript_busy]

/-- Settles O22: an idle core answers the state it was given. -/
theorem idleCoreChangesNothing : Obligations.IdleCoreChangesNothing := by
  refine ⟨fun s hb h => ?_, fun s r hb h => ?_⟩
  · rw [step_of_no_line h, coreStep_idle hb]
  · rw [step_of_pass h, coreStep_idle (by simpa using hb)]

/-! ### What a transition does to OPR, RC and BUSY -/

/-- A step (R22), whichever command: OPR and the script stay; BUSY falls and RC stays exactly in the last step. -/
theorem exec_busy_control (i : Instr) {s : State} (h : s.busy = true) :
    ∃ t, exec i s = .next t ∧ t.opr = s.opr ∧ t.script = s.script ∧ t.busy = !s.atLast ∧
      t.rc = if s.atLast then s.rc else s.nextIndex := by
  obtain ⟨u, hexec, hopr, hrc, hbusy, hscript, -⟩ := exec_busy_frame i h
  obtain ⟨ho, hs, -, hb, hr⟩ := u.advance_control
  rw [State.atLast_congr hopr hrc] at hb hr
  refine ⟨u.advance, hexec, ho.trans hopr, hs.trans hscript, ?_, ?_⟩
  · rw [hb, hbusy, h]
    cases s.atLast <;> rfl
  · rw [hr, hrc, State.nextIndex_congr hopr hrc]

/-- The last step is the one at RC = 0 for DECRYPT, at RC = 31 for the others (R22). -/
theorem State.atLast_iff (s : State) : s.atLast = true ↔ s.rc = if s.opr = 0b11#2 then 0#5 else 31#5 := by
  unfold State.atLast
  by_cases h : s.opr = 0b11#2
  · rw [if_pos h, if_pos (show s.opr = encode .decrypt from h)]
    exact decide_eq_true_iff
  · rw [if_neg h, if_neg (show ¬s.opr = encode .decrypt from h)]
    exact decide_eq_true_iff

theorem State.hostVal_sequencer (s : State) (v : HostVal) : sameSequencer s (s.hostVal v).2 := by
  obtain ⟨x, n, e, -⟩ := s.hostVal_cases v
  rw [e]
  exact ⟨rfl, rfl, rfl⟩

theorem State.hostPut_sequencer (s : State) (l : Loc) (x : Word) : sameSequencer s (s.hostPut l x) := by
  cases hb : s.busy with
  | false => rw [State.hostPut_idle l x hb]; exact ⟨rfl, rfl, rfl⟩
  | true =>
    cases hl : isInput l with
    | true => rw [State.hostPut_input x hl]; exact ⟨rfl, rfl, rfl⟩
    | false => rw [State.hostPut_output_busy x hb hl]; exact ⟨rfl, rfl, rfl⟩

/-- A host write leaves the sequencer alone (R44, R51). -/
theorem hostWrite_sequencer (l : Loc) (v : HostVal) (s : State) : sameSequencer s (hostWrite l v s) := by
  obtain ⟨ho, hr, hb⟩ := (s.hostVal v).2.hostPut_sequencer l (s.hostVal v).1
  obtain ⟨ho', hr', hb'⟩ := s.hostVal_sequencer v
  exact ⟨ho.trans ho', hr.trans hr', hb.trans hb'⟩

/-- A host read leaves the sequencer alone (R36). -/
theorem hostRead_sequencer (l : Loc) (s : State) : sameSequencer s (hostRead l s) := by
  have h : sameSequencer s (if s.busy then s.draw else s.memRead l).2 := by
    split <;> exact ⟨rfl, rfl, rfl⟩
  exact h

/-- A transition takes a START: the host writes CMD while BUSY = 0 (R24). -/
def TakesStart (s t : State) : Prop :=
  s.busy = false ∧ t.busy = true ∧ ∃ op r, s.script = .cmd op :: r ∧ t.opr = op

/-- A transition is a step of the running command (R22). -/
def TakesStep (s t : State) : Prop :=
  s.busy = true ∧ t.opr = s.opr ∧ t.busy = !s.atLast ∧ t.rc = if s.atLast then s.rc else s.nextIndex

theorem coreStep_sequencer {s t : State} (h : coreStep s = .next t) : sameSequencer s t ∨ TakesStep s t := by
  cases hb : s.busy with
  | false =>
    rw [coreStep_idle hb] at h
    cases h
    exact .inl ⟨rfl, rfl, rfl⟩
  | true =>
    obtain ⟨t', hexec, ho, -, hbusy, hrc⟩ := exec_busy_control (decode s.opr) hb
    rw [coreStep_busy hb, hexec] at h
    cases h
    exact .inr ⟨hb, ho, hbusy, hrc⟩

/-- The three things a transition other than RESET can do to the sequencer: leave it alone, step it, start it. -/
theorem step_sequencer {s t : State} (h : step s = .next t) (hreset : ∀ r, s.script ≠ .reset :: r) :
    sameSequencer s t ∨ TakesStep s t ∨ TakesStart s t := by
  match hs : s.script with
  | [] =>
    rw [step_of_no_line hs] at h
    exact (coreStep_sequencer h).imp_right .inl
  | .pass :: r =>
    rw [step_of_pass hs] at h
    exact (coreStep_sequencer h).imp_right .inl
  | .wait :: r =>
    cases hb : s.busy with
    | true =>
      rw [step_of_wait_busy hb hs] at h
      exact (coreStep_sequencer h).imp_right .inl
    | false =>
      rw [step_of_wait_idle hb hs] at h
      cases h
      exact .inl ⟨rfl, rfl, rfl⟩
  | .cmd op :: r =>
    rw [step_of_cmd hs] at h
    cases hb : s.busy with
    | true =>
      rw [hostCmd_busy op (by simpa using hb)] at h
      cases h
      exact .inl ⟨rfl, rfl, rfl⟩
    | false =>
      obtain ⟨t', hexec, hbusy, hopr, -⟩ := exec_idle_frame (decode op) (s := s.setScript r) hb
      rw [hostCmd_idle op (by simpa using hb), hexec] at h
      cases h
      exact .inr (.inr ⟨hb, hbusy, op, r, hs, hopr.trans (encode_decode op)⟩)
  | .status :: r =>
    rw [step_of_status hs] at h
    cases h
    exact .inl ⟨rfl, rfl, rfl⟩
  | .wr l v :: r =>
    rw [step_of_wr hs] at h
    cases h
    exact .inl (hostWrite_sequencer l v (s.setScript r))
  | .rd l :: r =>
    rw [step_of_rd hs] at h
    cases h
    exact .inl (hostRead_sequencer l (s.setScript r))
  | .reset :: r => exact absurd hs (hreset r)

/-- Settles O57, by what a transition can do to the sequencer. -/
theorem oprIsLatchedAndBusyHasThreeWriters : Obligations.OprIsLatchedAndBusyHasThreeWriters := by
  intro s t h hreset
  rcases step_sequencer h hreset with ⟨hopr, -, hbusy⟩ | ⟨hb, hopr, hbusy, hrc⟩ | ⟨hb, -, op, r, hs, hopr⟩
  · exact ⟨fun _ => hopr, fun hb ht => by simp [hbusy, hb] at ht, fun hb ht => by simp [hbusy, hb] at ht⟩
  · refine ⟨fun _ => hopr, by simp [hb], fun _ hfall => ?_⟩
    have hlast : s.atLast = true := by simpa [hbusy] using hfall
    exact ⟨s.atLast_iff.1 hlast, by simpa [hlast] using hrc⟩
  · exact ⟨by simp [hb], fun _ _ => ⟨op, r, hs, hopr⟩, by simp [hb]⟩

/-! ### What the core does to KEY and BIN -/

/-- The end of a step changes no word but those the host left open (log 9). -/
theorem State.word_advance {u : State} {l : Loc} (h : l ∉ u.disturbed) : u.advance.word l = u.word l := by
  cases hl : u.atLast with
  | false => rw [State.advance_notLast hl]; rfl
  | true =>
    obtain ⟨m, n, v, -, -, hframe⟩ := u.settle_frame
    rw [State.advance_last hl]
    exact hframe l h

/-- Settles O56: a step writes outputs, and what the host left open is no word of KEY or BIN. -/
theorem coreNeverChangesInputs : Obligations.CoreNeverChangesInputs := by
  rintro s t ⟨-, -, hopen⟩ hs h l hl
  cases hb : s.busy with
  | false =>
    rw [step_of_no_line hs, coreStep_idle hb] at h
    cases h
    rfl
  | true =>
    obtain ⟨u, hexec, -, -, -, -, -, hdist, -, hframe⟩ := exec_busy_frame (decode s.opr) hb
    rw [step_of_busy hs hb, hexec] at h
    cases h
    have hclosed : l ∉ u.disturbed := fun hmem => by simp [hopen l (hdist ▸ hmem)] at hl
    rw [State.word_advance hclosed]
    refine hframe l (fun hmem => ?_)
    split at hmem <;> simp only [List.mem_cons, List.not_mem_nil, or_false] at hmem
    · subst hmem; simp [isInput] at hl
    · rcases hmem with rfl | rfl <;> simp [isInput] at hl

/-! ### The 32 steps of a command -/

/-- The index of the step a command takes after `k` steps; after the last one RC stays (R21, R22). -/
def indexAfter (i : Instr) (k : Nat) : Nat := if i = .decrypt then 31 - min k 31 else min k 31

/-- Command `i` has taken `k` of its 32 steps, and the host makes no move. -/
structure AfterSteps (i : Instr) (k : Nat) (t : State) : Prop where
  script : t.script = []
  opr : t.opr = encode i
  busy : t.busy = decide (k < 32)
  rc : t.rc.toNat = indexAfter i k

theorem encode_eq_decrypt_iff (i : Instr) : encode i = 0b11#2 ↔ i = .decrypt := by
  cases i <;> decide

theorem AfterSteps.atLast {i : Instr} {k : Nat} {t : State} (h : AfterSteps i k t) (hk : k < 32) :
    t.atLast = decide (k = 31) := by
  have hrc := h.rc
  rw [Bool.eq_iff_iff, State.atLast_iff, h.opr, decide_eq_true_iff, ← BitVec.toNat_inj]
  by_cases hd : i = .decrypt
  · simp only [indexAfter, hd, encode, if_true, BitVec.toNat_ofNat] at hrc ⊢
    omega
  · simp only [indexAfter, if_neg hd, if_neg (mt (encode_eq_decrypt_iff i).1 hd), BitVec.toNat_ofNat] at hrc ⊢
    omega

/-- RC moves along the command's indices (R21). -/
theorem AfterSteps.nextIndex {i : Instr} {k : Nat} {t : State} (h : AfterSteps i k t) (hk : k < 31) :
    t.nextIndex.toNat = indexAfter i (k + 1) := by
  have hrc := h.rc
  by_cases hd : i = .decrypt
  · subst hd
    simp only [indexAfter, if_true] at hrc ⊢
    have hne : t.rc ≠ 0#5 := fun e => by simp only [e, BitVec.toNat_ofNat] at hrc; omega
    rw [State.nextIndex, if_pos h.opr, rc_down hne]
    omega
  · simp only [indexAfter, if_neg hd] at hrc ⊢
    have hne : t.rc ≠ 31#5 := fun e => by simp only [e, BitVec.toNat_ofNat] at hrc; omega
    have hopr : t.opr ≠ encode .decrypt := h.opr ▸ mt (encode_eq_decrypt_iff i).1 hd
    rw [State.nextIndex, if_neg hopr, rc_up hne]
    omega

theorem AfterSteps.start (i : Instr) {s t : State} (hb : s.busy = false) (hs : s.script = [])
    (h : exec i s = .next t) : AfterSteps i 0 t := by
  obtain ⟨t', hexec, hbusy, hopr, hrc, -, hscript, -⟩ := exec_idle_frame i hb
  obtain rfl : t' = t := Host.Outcome.next.inj (hexec.symm.trans h)
  exact ⟨hscript.trans hs, hopr, hbusy, by cases i <;> rw [hrc] <;> rfl⟩

theorem AfterSteps.busy_true {i : Instr} {k : Nat} {t : State} (h : AfterSteps i k t) (hk : k < 32) :
    t.busy = true := by
  simpa [hk] using h.busy

/-- While its command runs the machine's transition is a step of that command. -/
theorem AfterSteps.step_eq {i : Instr} {k : Nat} {t : State} (h : AfterSteps i k t) (hk : k < 32) :
    step t = exec i t := by
  rw [step_of_busy h.script (h.busy_true hk), h.opr, decode_encode]

theorem AfterSteps.succ {i : Instr} {k : Nat} {t t' : State} (h : AfterSteps i k t) (hk : k < 32)
    (hexec : exec i t = .next t') : AfterSteps i (k + 1) t' := by
  obtain ⟨u, hu, hopr, hscript, hbusy, hrc⟩ := exec_busy_control i (h.busy_true hk)
  obtain rfl : u = t' := Host.Outcome.next.inj (hu.symm.trans hexec)
  rw [h.atLast hk] at hbusy hrc
  have hrc' : u.rc.toNat = indexAfter i (k + 1) := by
    by_cases hlast : k = 31
    · subst hlast
      exact (congrArg BitVec.toNat hrc).trans h.rc
    · rw [hrc, if_neg (by simpa using hlast), h.nextIndex (by omega)]
  refine ⟨hscript.trans h.script, hopr.trans h.opr, ?_, hrc'⟩
  rw [hbusy, ← decide_not, decide_eq_decide]
  omega

/-- Induction over a run: what holds first and is kept by each of the first `n` transitions holds all along. -/
theorem runFor_induction {n : Nat} {s : State} (P : Nat → State → Prop) (hzero : P 0 s)
    (hsucc : ∀ k < n, ∀ t, P k t → ∃ t', step t = .next t' ∧ P (k + 1) t') :
    ∀ k ≤ n, ∃ t, runFor k s = .next t ∧ P k t := by
  intro k
  induction k with
  | zero => exact fun _ => ⟨s, runFor_zero s, hzero⟩
  | succ k ih =>
    intro hk
    obtain ⟨t, hrun, ht⟩ := ih (by omega)
    obtain ⟨t', hstep, ht'⟩ := hsucc k hk t ht
    exact ⟨t', runFor_snoc k hrun hstep, ht'⟩

/-- Settles O41: by induction over the steps, with the control state `AfterSteps`. -/
theorem everyCommandTakes32Steps : Obligations.EveryCommandTakes32Steps := by
  intro s i hb hs
  obtain ⟨s1, hstart⟩ := exec_next i s
  have hrun := runFor_induction (n := 32) (AfterSteps i) (AfterSteps.start i hb hs hstart) fun k hk t ht => by
    obtain ⟨t', hexec⟩ := exec_next i t
    exact ⟨t', (ht.step_eq hk).trans hexec, ht.succ hk hexec⟩
  refine ⟨s1, hstart, fun k hk => ?_⟩
  obtain ⟨t, hrun, ht⟩ := hrun k hk
  exact ⟨t, hrun, ht.busy, ht.opr, ht.rc⟩

/-! ### A command as a whole, by an invariant of its data -/

/-- The step action of a command at index RC, without the sequencer's share of the step (R83, R91, R97, R102). -/
def stepAction : Instr → State → State
  | .keySchedule => keyScheduleStep
  | .encrypt => encryptStep
  | .encryptKs => encryptKsStep
  | .decrypt => decryptStep

theorem exec_busy (i : Instr) {s : State} (h : s.busy = true) : exec i s = .next (stepAction i s).advance := by
  cases i with
  | keySchedule => exact exec_keySchedule_busy h
  | encrypt => exact exec_encrypt_busy h
  | encryptKs => exact exec_encryptKs_busy h
  | decrypt => exact exec_decrypt_busy h

theorem stepAction_disturbed (i : Instr) (s : State) : (stepAction i s).disturbed = s.disturbed := by
  cases i with
  | keySchedule => simp only [stepAction, keyScheduleStep]; split <;> rfl
  | encrypt => simp only [stepAction, encryptStep]; split <;> rfl
  | encryptKs => simp only [stepAction, encryptKsStep]; split <;> rfl
  | decrypt => simp only [stepAction, decryptStep]; split <;> rfl

/-- The end of a step of an undisturbed command changes RC and BUSY only (R22). -/
theorem State.advance_undisturbed {u : State} (h : u.disturbed = []) :
    ∃ r b, u.advance = (u.setRc r).setBusy b := by
  cases hl : u.atLast with
  | true => exact ⟨u.rc, false, by rw [State.advance_last hl, State.settle_of_nil h]; rfl⟩
  | false => exact ⟨u.nextIndex, u.busy, by rw [State.advance_notLast hl]; rfl⟩

/-- The rule for a command as a whole: what holds of the data after START and is kept by each of the 32 step actions
holds when the core is idle again. -/
theorem runCommand_induction {i : Instr} {s : State} (hs : Idle s) (P : Nat → State → Prop)
    (hcontrol : ∀ k u r b, P k u → P k ((u.setRc r).setBusy b)) (hzero : ∀ t, exec i s = .next t → P 0 t)
    (hsucc : ∀ k < 32, ∀ t, AfterSteps i k t → P k t → P (k + 1) (stepAction i t)) :
    ∃ t, runCommand i s = .next t ∧ AfterSteps i 32 t ∧ Idle t ∧ P 32 t := by
  obtain ⟨hb, hd, hscript⟩ := hs
  obtain ⟨s1, hstart, -, -, -, -, -, -, hd1⟩ := exec_idle_frame i hb
  obtain ⟨t, hrun, hafter, hdist, ht⟩ := runFor_induction (n := 32) (s := s1)
    (fun k t => AfterSteps i k t ∧ t.disturbed = [] ∧ P k t)
    ⟨.start i hb hscript hstart, hd1.trans hd, hzero s1 hstart⟩
    (fun k hk t ⟨hafter, hdist, ht⟩ => by
      have hexec := exec_busy i (hafter.busy_true hk)
      have hdist' := (stepAction_disturbed i t).trans hdist
      refine ⟨_, (hafter.step_eq hk).trans hexec, hafter.succ hk hexec, ?_⟩
      obtain ⟨r, b, e⟩ := State.advance_undisturbed hdist'
      rw [e]
      exact ⟨hdist', hcontrol _ _ _ _ (hsucc k hk t hafter ht)⟩) 32 le_rfl
  exact ⟨t, by rw [runCommand, hstart]; exact hrun, hafter, ⟨hafter.busy, hdist, hafter.script⟩, ht⟩

/-- Indices below 32 are told apart by their five bits. -/
theorem index_inj {j k : Nat} (hj : j < 32) (hk : k < 32) : BitVec.ofNat 5 j = BitVec.ofNat 5 k ↔ j = k := by
  rw [← BitVec.toNat_inj, BitVec.toNat_ofNat, BitVec.toNat_ofNat]
  omega

/-- A forward command's step number `k` is at index `k` (R21). -/
theorem AfterSteps.rc_forward {i : Instr} {k : Nat} {t : State} (h : AfterSteps i k t) (hd : i ≠ .decrypt)
    (hk : k < 32) : t.rc = BitVec.ofNat 5 k := by
  have hrc := h.rc
  rw [indexAfter, if_neg hd] at hrc
  rw [← BitVec.toNat_inj, BitVec.toNat_ofNat]
  omega

/-- DECRYPT's step number `k` is at index `31 - k` (R21). -/
theorem AfterSteps.rc_decrypt {k : Nat} {t : State} (h : AfterSteps .decrypt k t) (hk : k < 32) :
    t.rc = BitVec.ofNat 5 (31 - k) := by
  have hrc := h.rc
  rw [indexAfter, if_pos rfl] at hrc
  rw [← BitVec.toNat_inj, BitVec.toNat_ofNat]
  omega

theorem State.loadBlock_of_holds {s : State} {v : Pair} (h : HoldsBin s v) : s.loadBlock = s.setBlock v := by
  obtain ⟨h0, h1⟩ := h
  simp only [State.loadBlock, State.memRead_of_written h0, State.memRead_of_written h1]

theorem State.loadKey_of_holds {s : State} {v : Pair} (h : HoldsKey s v) : s.loadKey = s.setKeys v := by
  obtain ⟨h0, h1⟩ := h
  simp only [State.loadKey, State.memRead_of_written h0, State.memRead_of_written h1]

/-- START where the words to load are written: the registers hold them, nothing else is touched (R24, R82). -/
theorem startCommand_loadKey {i : Instr} {s : State} {key : Pair} (h : HoldsKey s key) :
    startCommand i State.loadKey s =
      (((s.setOpr (encode i)).setRc (firstIndex i)).setKeys key).setBusy true := by
  rw [startCommand, State.loadKey_of_holds (s := (s.setOpr (encode i)).setRc (firstIndex i)) h]

theorem startCommand_loadBlock {i : Instr} {s : State} {v : Pair} (h : HoldsBin s v) :
    startCommand i State.loadBlock s =
      (((s.setOpr (encode i)).setRc (firstIndex i)).setBlock v).setBusy true := by
  rw [startCommand, State.loadBlock_of_holds (s := (s.setOpr (encode i)).setRc (firstIndex i)) h]

theorem startCommand_loadBlock_loadKey {i : Instr} {s : State} {v key : Pair} (hbin : HoldsBin s v)
    (hkey : HoldsKey s key) : startCommand i (fun t => t.loadBlock.loadKey) s =
      ((((s.setOpr (encode i)).setRc (firstIndex i)).setBlock v).setKeys key).setBusy true := by
  rw [startCommand, State.loadBlock_of_holds (s := (s.setOpr (encode i)).setRc (firstIndex i)) hbin,
    State.loadKey_of_holds (s := ((s.setOpr (encode i)).setRc (firstIndex i)).setBlock v) hkey]

/-! ### KEY_SCHEDULE on a written key (41_key_schedule.md) -/

/-- KEY_SCHEDULE's data after `k` steps from the idle state `s`: the first `k` terms of the key sequence are stored. -/
structure KeyScheduleData (s : State) (key : Pair) (k : Nat) (t : State) : Prop where
  keys : (t.k0, t.k1) = keySeq key (min k 31)
  stored : ∀ j < k, t.word (.sch (BitVec.ofNat 5 j)) = some (keySeq key j).2
  words : sameWords s t schedule
  block : sameBlock s t
  draws : t.draws = s.draws

theorem mem_schedule (i : BitVec 5) : Loc.sch i ∈ schedule :=
  List.mem_map.2 ⟨i.toNat, List.mem_range.2 i.isLt, by rw [BitVec.ofNat_toNat, BitVec.setWidth_eq]⟩

/-- A step action of KEY_SCHEDULE stores K1 at SCH[RC] and changes no other word, block register or count (R83). -/
theorem keyScheduleStep_frame (t : State) :
    (∀ l, (keyScheduleStep t).word l = if l = .sch t.rc then some t.k1 else t.word l) ∧
      sameBlock t (keyScheduleStep t) ∧ (keyScheduleStep t).draws = t.draws := by
  by_cases h : t.rc = 31#5
  · rw [keyScheduleStep_last h]
    exact ⟨fun l => t.word_memWrite _ l _, ⟨rfl, rfl⟩, rfl⟩
  · rw [keyScheduleStep_mid h]
    exact ⟨fun l => t.word_memWrite _ l _, ⟨rfl, rfl⟩, rfl⟩

theorem KeyScheduleData.start {s t : State} {key : Pair} (hb : s.busy = false) (hkey : HoldsKey s key)
    (h : exec .keySchedule s = .next t) : KeyScheduleData s key 0 t := by
  rw [exec_keySchedule_idle hb, startCommand_loadKey hkey] at h
  cases h
  exact ⟨rfl, by simp, fun _ _ => rfl, ⟨rfl, rfl⟩, rfl⟩

theorem KeyScheduleData.succ {s t : State} {key : Pair} {k : Nat} (h : KeyScheduleData s key k t) (hk : k < 32)
    (ht : AfterSteps .keySchedule k t) : KeyScheduleData s key (k + 1) (keyScheduleStep t) := by
  have hrc := ht.rc_forward (by decide) hk
  obtain ⟨hword, ⟨hw0, hw1⟩, hdraws⟩ := keyScheduleStep_frame t
  have hkeys := h.keys
  rw [Nat.min_eq_left (by omega)] at hkeys
  refine ⟨?_, fun j hj => ?_, fun l hl => ?_, ⟨hw0.trans h.block.1, hw1.trans h.block.2⟩, hdraws.trans h.draws⟩
  · by_cases hlast : k = 31
    · subst hlast
      rw [keyScheduleStep_last hrc]
      exact hkeys
    · rw [keyScheduleStep_mid (by rw [hrc]; exact mt (index_inj hk (by decide)).1 hlast), Nat.min_eq_left (by omega),
        keySeq, ← hkeys, ← hrc]
      rfl
  · by_cases hjk : j = k
    · rw [hword, hrc, hjk, if_pos rfl, ← hkeys]
    · rw [hword, hrc, if_neg (by rw [Loc.sch.injEq, index_inj (by omega) hk]; exact hjk)]
      exact h.stored j (by omega)
  · rw [hword, if_neg (by rintro rfl; exact hl (mem_schedule _))]
    exact h.words l hl

/-- What KEY_SCHEDULE leaves, from every idle state with KEY written (R84, R86). -/
theorem keySchedule_result {s : State} {key : Pair} (hs : Idle s) (hkey : HoldsKey s key) :
    ∃ t, runCommand .keySchedule s = .next t ∧ AfterSteps .keySchedule 32 t ∧ Idle t ∧ KeyScheduleData s key 32 t :=
  runCommand_induction hs (KeyScheduleData s key)
    (fun _ _ _ _ h => ⟨h.keys, h.stored, h.words, h.block, h.draws⟩)
    (fun _ => KeyScheduleData.start hs.1 hkey) (fun _ hk _ ht h => h.succ hk ht)

theorem KeyScheduleData.holdsSch {s t : State} {key : Pair} (h : KeyScheduleData s key 32 t) :
    HoldsSch t (ks key) := by
  intro i
  have hi := h.stored i.toNat i.isLt
  rwa [BitVec.ofNat_toNat, BitVec.setWidth_eq] at hi

/-! ### ENCRYPT, ENCRYPT_KS and DECRYPT on written operands (42_encrypt.md, 43_decrypt.md) -/

/-- A block command's data after `k` steps from the idle state `s`: the block pair follows `f` and the key pair `g`, and
BOUT alone is written, in the last step (R92, R103). -/
structure BlockData (s : State) (f g : Nat → Pair) (k : Nat) (t : State) : Prop where
  block : (t.w0, t.w1) = f k
  keys : (t.k0, t.k1) = g k
  bout : k = 32 → HoldsBout t (f k)
  words : sameWords s t [.bout 0, .bout 1]
  draws : t.draws = s.draws

/-- A block command's step number `k` ends with the write-back when it is the last. -/
def writeBackAt (k : Nat) (u : State) : State := if k = 31 then u.writeBack else u

/-- A round from `t` to `u` that changes registers only, with the write-back due, is a step of a block command. -/
theorem BlockData.succ {s t u : State} {f g : Nat → Pair} {k : Nat} (h : BlockData s f g k t)
    (hblock : (u.w0, u.w1) = f (k + 1)) (hkeys : (u.k0, u.k1) = g (k + 1)) (hmem : u.mem = t.mem)
    (hdraws : u.draws = t.draws) : BlockData s f g (k + 1) (writeBackAt k u) := by
  have hword : ∀ l, u.word l = t.word l := fun l => congrArg (·.find l.addr) hmem
  by_cases hk : k = 31
  · rw [writeBackAt, if_pos hk]
    refine ⟨hblock, hkeys, fun _ => ?_, fun l hl => ?_, hdraws.trans h.draws⟩
    · rw [← hblock]
      exact ⟨by simp [State.word_writeBack], by simp [State.word_writeBack]⟩
    · simp only [List.mem_cons, List.not_mem_nil, or_false, not_or] at hl
      rw [State.word_writeBack, if_neg hl.1, if_neg hl.2, hword]
      exact h.words l (by simp [hl])
  · rw [writeBackAt, if_neg hk]
    exact ⟨hblock, hkeys, by omega, fun l hl => (hword l).trans (h.words l hl), hdraws.trans h.draws⟩

theorem encLoop_succ (pt key : Pair) (k : Nat) : encLoop pt key (k + 1) =
    (fwdRound (encLoop pt key k).1.1 (encLoop pt key k).1.2 (encLoop pt key k).2.2,
      fwdRound (encLoop pt key k).2.1 (encLoop pt key k).2.2 (zext64 (BitVec.ofNat 5 k))) := rfl

theorem encryptStep_eq {t : State} {k : Nat} (ht : AfterSteps .encrypt k t) (hk : k < 32) :
    encryptStep t = writeBackAt k (t.blockRound t.k1).keyAdvance := by
  have hlast : t.rc = 31#5 ↔ k = 31 := ht.rc_forward (by decide) hk ▸ index_inj hk (by decide)
  by_cases h : k = 31
  · rw [encryptStep_last (hlast.2 h), writeBackAt, if_pos h]
  · rw [encryptStep_mid (mt hlast.1 h), writeBackAt, if_neg h]

theorem encryptKsStep_eq {t : State} {k : Nat} {v : Word} (ht : AfterSteps .encryptKs k t) (hk : k < 32)
    (hv : t.word (.sch t.rc) = some v) : encryptKsStep t = writeBackAt k (t.blockRound v) := by
  have hlast : t.rc = 31#5 ↔ k = 31 := ht.rc_forward (by decide) hk ▸ index_inj hk (by decide)
  by_cases h : k = 31
  · rw [encryptKsStep_last (hlast.2 h), State.value_of_written hv, State.afterRead_of_written hv,
      writeBackAt, if_pos h]
  · rw [encryptKsStep_mid (mt hlast.1 h), State.value_of_written hv, State.afterRead_of_written hv,
      writeBackAt, if_neg h]

theorem decryptStep_eq {t : State} {k : Nat} {v : Word} (ht : AfterSteps .decrypt k t) (hk : k < 32)
    (hv : t.word (.sch t.rc) = some v) : decryptStep t = writeBackAt k (t.blockInvRound v) := by
  have hlast : t.rc = 0#5 ↔ k = 31 := by
    rw [ht.rc_decrypt hk, index_inj (by omega) (by decide)]
    omega
  by_cases h : k = 31
  · rw [decryptStep_last (hlast.2 h), State.value_of_written hv, State.afterRead_of_written hv,
      writeBackAt, if_pos h]
  · rw [decryptStep_mid (mt hlast.1 h), State.value_of_written hv, State.afterRead_of_written hv,
      writeBackAt, if_neg h]

/-- BlockData does not speak of RC and BUSY. -/
theorem BlockData.setControl {s u : State} {f g : Nat → Pair} {k : Nat} (r : BitVec 5) (b : Bool)
    (h : BlockData s f g k u) : BlockData s f g k ((u.setRc r).setBusy b) :=
  ⟨h.block, h.keys, h.bout, h.words, h.draws⟩

/-- The block commands leave SCH alone while they run. -/
theorem BlockData.word_sch {s t : State} {f g : Nat → Pair} {k : Nat} {sch : Schedule} (h : BlockData s f g k t)
    (hsch : HoldsSch s sch) (i : BitVec 5) : t.word (.sch i) = some (sch i) :=
  (h.words (.sch i) (by simp)).trans (hsch i)

/-- A START that loads the block only begins a block command. -/
theorem BlockData.start_block {i : Instr} {s : State} {f : Nat → Pair} (hbin : HoldsBin s (f 0)) :
    BlockData s f (fun _ => (s.k0, s.k1)) 0 (startCommand i State.loadBlock s) := by
  rw [startCommand_loadBlock hbin]
  exact ⟨rfl, rfl, by simp, fun _ _ => rfl, rfl⟩

/-- What ENCRYPT leaves, from every idle state with BIN and KEY written (R93, R94). -/
theorem encrypt_result {s : State} {pt key : Pair} (hs : Idle s) (hbin : HoldsBin s pt) (hkey : HoldsKey s key) :
    ∃ t, runCommand .encrypt s = .next t ∧ AfterSteps .encrypt 32 t ∧ Idle t ∧
      BlockData s (fun k => (encLoop pt key k).1) (fun k => (encLoop pt key k).2) 32 t := by
  refine runCommand_induction hs (BlockData s _ _) (fun _ _ r b h => h.setControl r b) (fun t h => ?_)
    fun k hk t ht h => ?_
  · rw [exec_encrypt_idle hs.1, startCommand_loadBlock_loadKey hbin hkey] at h
    cases h
    exact ⟨rfl, rfl, by simp, fun _ _ => rfl, rfl⟩
  · have hrc := ht.rc_forward (by decide) hk
    rw [stepAction, encryptStep_eq ht hk]
    refine h.succ ?_ ?_ rfl rfl
    · rw [encLoop_succ, ← h.block, ← h.keys]; rfl
    · rw [encLoop_succ, ← h.keys, ← hrc]; rfl

/-- What ENCRYPT_KS leaves, from every idle state with BIN and SCH written (R98). -/
theorem encryptKs_result {s : State} {pt : Pair} {sch : Schedule} (hs : Idle s) (hbin : HoldsBin s pt)
    (hsch : HoldsSch s sch) :
    ∃ t, runCommand .encryptKs s = .next t ∧ AfterSteps .encryptKs 32 t ∧ Idle t ∧
      BlockData s (encSeq pt sch) (fun _ => (s.k0, s.k1)) 32 t := by
  refine runCommand_induction hs (BlockData s _ _) (fun _ _ r b h => h.setControl r b) (fun t h => ?_)
    fun k hk t ht h => ?_
  · rw [exec_encryptKs_idle hs.1] at h
    exact Host.Outcome.next.inj h ▸ BlockData.start_block hbin
  · have hrc := ht.rc_forward (by decide) hk
    rw [stepAction, encryptKsStep_eq ht hk (h.word_sch hsch t.rc)]
    refine h.succ ?_ h.keys rfl rfl
    rw [encSeq, ← h.block, ← hrc]; rfl

/-- What DECRYPT leaves, from every idle state with BIN and SCH written (R104). -/
theorem decrypt_result {s : State} {ct : Pair} {sch : Schedule} (hs : Idle s) (hbin : HoldsBin s ct)
    (hsch : HoldsSch s sch) :
    ∃ t, runCommand .decrypt s = .next t ∧ AfterSteps .decrypt 32 t ∧ Idle t ∧
      BlockData s (decSeq ct sch) (fun _ => (s.k0, s.k1)) 32 t := by
  refine runCommand_induction hs (BlockData s _ _) (fun _ _ r b h => h.setControl r b) (fun t h => ?_)
    fun k hk t ht h => ?_
  · rw [exec_decrypt_idle hs.1] at h
    exact Host.Outcome.next.inj h ▸ BlockData.start_block hbin
  · have hrc := ht.rc_decrypt hk
    rw [stepAction, decryptStep_eq ht hk (h.word_sch hsch t.rc)]
    refine h.succ ?_ h.keys rfl rfl
    rw [decSeq, ← h.block, ← hrc]; rfl

/-! ### Two runs of one command -/

/-- Both states hold the same Word at the location. -/
def HoldSame (s s' : State) (l : Loc) : Prop := written s l = true ∧ s'.word l = s.word l

theorem HoldSame.exists_word {s s' : State} {l : Loc} (h : HoldSame s s' l) :
    ∃ v, s.word l = some v ∧ s'.word l = some v := by
  obtain ⟨hw, he⟩ := h
  obtain ⟨v, hv⟩ := Option.isSome_iff_exists.1 hw
  exact ⟨v, hv, he.trans hv⟩

theorem exists_holdsKey {s s' : State} (h0 : HoldSame s s' (.key 0)) (h1 : HoldSame s s' (.key 1)) :
    ∃ key, HoldsKey s key ∧ HoldsKey s' key := by
  obtain ⟨a, ha, ha'⟩ := h0.exists_word
  obtain ⟨b, hb, hb'⟩ := h1.exists_word
  exact ⟨(a, b), ⟨ha, hb⟩, ha', hb'⟩

theorem exists_holdsBin {s s' : State} (h0 : HoldSame s s' (.bin 0)) (h1 : HoldSame s s' (.bin 1)) :
    ∃ v, HoldsBin s v ∧ HoldsBin s' v := by
  obtain ⟨a, ha, ha'⟩ := h0.exists_word
  obtain ⟨b, hb, hb'⟩ := h1.exists_word
  exact ⟨(a, b), ⟨ha, hb⟩, ha', hb'⟩

theorem exists_holdsSch {s s' : State} (h : ∀ i, HoldSame s s' (.sch i)) :
    ∃ sch, HoldsSch s sch ∧ HoldsSch s' sch := by
  choose sch hs hs' using fun i => (h i).exists_word
  exact ⟨sch, hs, hs'⟩

theorem holdsSch_same_outputs {t t' : State} {sch : Schedule} (h : HoldsSch t sch) (h' : HoldsSch t' sch) :
    ∀ l ∈ outputs .keySchedule, t'.word l = t.word l := by
  intro l hl
  obtain ⟨j, -, rfl⟩ := List.mem_map.1 hl
  rw [h, h']

theorem BlockData.same_outputs {s s' t t' : State} {f g g' : Nat → Pair} (h : BlockData s f g 32 t)
    (h' : BlockData s' f g' 32 t') : ∀ l ∈ [Loc.bout 0, .bout 1], t'.word l = t.word l := by
  obtain ⟨h0, h1⟩ := h.bout rfl
  obtain ⟨h0', h1'⟩ := h'.bout rfl
  intro l hl
  simp only [List.mem_cons, List.not_mem_nil, or_false] at hl
  rcases hl with rfl | rfl
  · rw [h0, h0']
  · rw [h1, h1']

/-- Settles O55: each command's outputs are a function of the operands both states hold. -/
theorem resultDependsOnOperandsOnly : Obligations.ResultDependsOnOperandsOnly := by
  intro i s s' hs hs' hreads
  have hsame : ∀ l ∈ reads i, HoldSame s s' l := hreads
  cases i with
  | keySchedule =>
    obtain ⟨key, hkey, hkey'⟩ := exists_holdsKey (hsame _ (by simp [reads])) (hsame _ (by simp [reads]))
    obtain ⟨t, hrun, -, -, hdata⟩ := keySchedule_result hs hkey
    obtain ⟨t', hrun', -, -, hdata'⟩ := keySchedule_result hs' hkey'
    exact ⟨t, t', hrun, hrun', holdsSch_same_outputs hdata.holdsSch hdata'.holdsSch⟩
  | encrypt =>
    obtain ⟨key, hkey, hkey'⟩ := exists_holdsKey (hsame _ (by simp [reads])) (hsame _ (by simp [reads]))
    obtain ⟨pt, hbin, hbin'⟩ := exists_holdsBin (hsame _ (by simp [reads])) (hsame _ (by simp [reads]))
    obtain ⟨t, hrun, -, -, hdata⟩ := encrypt_result hs hbin hkey
    obtain ⟨t', hrun', -, -, hdata'⟩ := encrypt_result hs' hbin' hkey'
    exact ⟨t, t', hrun, hrun', hdata.same_outputs hdata'⟩
  | encryptKs =>
    obtain ⟨pt, hbin, hbin'⟩ := exists_holdsBin (hsame _ (by simp [reads])) (hsame _ (by simp [reads]))
    obtain ⟨sch, hsch, hsch'⟩ := exists_holdsSch fun j => hsame _ (by simp [reads, mem_schedule])
    obtain ⟨t, hrun, -, -, hdata⟩ := encryptKs_result hs hbin hsch
    obtain ⟨t', hrun', -, -, hdata'⟩ := encryptKs_result hs' hbin' hsch'
    exact ⟨t, t', hrun, hrun', hdata.same_outputs hdata'⟩
  | decrypt =>
    obtain ⟨ct, hbin, hbin'⟩ := exists_holdsBin (hsame _ (by simp [reads])) (hsame _ (by simp [reads]))
    obtain ⟨sch, hsch, hsch'⟩ := exists_holdsSch fun j => hsame _ (by simp [reads, mem_schedule])
    obtain ⟨t, hrun, -, -, hdata⟩ := decrypt_result hs hbin hsch
    obtain ⟨t', hrun', -, -, hdata'⟩ := decrypt_result hs' hbin' hsch'
    exact ⟨t, t', hrun, hrun', hdata.same_outputs hdata'⟩

end Sys2Proof.Machine
end

section
/-! PROOFS. The statements on the buffers (20_memory.md): MemRead and MemWrite, the one form of equal contents, the
host's writes and reads, what a command writes before its last step, and the machine's invariant, kept by each
operation that a transition is made of. -/

namespace Sys2Proof.Machine

open Safety

/-! ### MemRead, MemWrite and the canonical form -/

/-- Settles O13: the laws of one MemRead and one MemWrite, clause by clause. -/
theorem memReadReturnsLatestMemWrite : Obligations.MemReadReturnsLatestMemWrite :=
  ⟨fun s l v => State.memRead_of_written (s.word_memWrite_self l v), fun s _ _ v hl => s.word_memWrite_other v hl,
    fun _ _ _ h => State.memRead_of_written h, fun _ _ _ => rfl⟩

/-- Under rising location numbers `find` tells exactly what is listed. -/
theorem Memory.find_eq_some_iff_mem {m : Memory} (h : m.Pairwise (fun c d => c.1 < d.1)) {a : Nat} {v : Word} :
    m.find a = some v ↔ (a, v) ∈ m := by
  induction m with
  | nil => simp [Memory.find]
  | cons c m ih =>
    obtain ⟨b, w⟩ := c
    obtain ⟨hlt, hm⟩ := List.pairwise_cons.1 h
    by_cases hba : b = a
    · subst hba
      have hfresh : (b, v) ∉ m := fun hmem => lt_irrefl b (hlt _ hmem)
      simp [Memory.find, hfresh, eq_comm]
    · simp [Memory.find, hba, Ne.symm hba, ih hm]

/-- Equal contents are equal data: a strictly rising list is determined by its members. -/
theorem Memory.eq_of_find_eq {m m' : Memory} (h : m.wf) (h' : m'.wf) (hfind : ∀ a, m.find a = m'.find a) :
    m = m' := by
  have hasymm : Std.Asymm (fun c d : Nat × Word => c.1 < d.1) := ⟨fun _ _ => lt_asymm⟩
  refine h.1.eq_of_mem_iff h'.1 fun c => ?_
  rw [← Memory.find_eq_some_iff_mem h.1, ← Memory.find_eq_some_iff_mem h'.1, hfind]

/-- Settles O14: location numbers are injective, a write keeps the form, and the form is canonical. -/
theorem buffersHaveOneForm : Obligations.BuffersHaveOneForm :=
  ⟨fun _ _ => Loc.addr_inj, fun _ l v => State.wf_memWrite l v, fun _ _ => Memory.eq_of_find_eq⟩

/-! ### The host's writes and reads -/

/-- A WR line: the Word it stands for is put at the location, with at most a free value used up. -/
theorem hostWrite_eq_hostPut (l : Loc) (v : HostVal) (s : State) :
    ∃ x n, hostWrite l v s = (s.setDraws n).hostPut l x ∧ StandsFor s v x ∧ (∀ a, v = .lit a → n = s.draws) := by
  obtain ⟨x, n, e, hx⟩ := s.hostVal_cases v
  exact ⟨x, n, by rw [hostWrite, e], hx⟩

/-- A host write is a MemWrite while BUSY = 0 (R44) and, to KEY and BIN, at any time (R51). -/
theorem State.hostPut_eq_memWrite {s : State} {l : Loc} (x : Word) (h : s.busy = false ∨ isInput l = true) :
    s.hostPut l x = s.memWrite l x :=
  h.elim (s.hostPut_idle l x) (State.hostPut_input x)

/-- The transition under a WR line whose write is a MemWrite. -/
theorem step_wr_memWrite {s : State} {l : Loc} {v : HostVal} {r : List ScriptLine} (hs : s.script = .wr l v :: r)
    (h : s.busy = false ∨ isInput l = true) :
    ∃ t x, step s = .next t ∧ StandsFor s v x ∧ t.word l = some x ∧ sameWords s t [l] ∧
      t = { s with script := r, mem := t.mem, draws := t.draws } ∧ (∀ a, v = .lit a → t.draws = s.draws) := by
  obtain ⟨x, n, hwrite, hx, hn⟩ := hostWrite_eq_hostPut l v (s.setScript r)
  rw [State.hostPut_eq_memWrite x (by simpa using h)] at hwrite
  refine ⟨((s.setScript r).setDraws n).memWrite l x, x, by rw [step_of_wr hs, hwrite], hx,
    State.word_memWrite_self _ l x, fun l' hl => ?_, rfl, hn⟩
  exact State.word_memWrite_other _ x (by simpa using hl)

/-- Settles O32: while BUSY = 0 every host write is a MemWrite. -/
theorem hostWriteWhileIdle : Obligations.HostWriteWhileIdle :=
  fun _ _ _ _ hb hs => step_wr_memWrite hs (.inl hb)

/-- Settles O34: a host write to KEY or BIN is a MemWrite while BUSY = 1 too. -/
theorem hostWriteOfInputWhileBusy : Obligations.HostWriteOfInputWhileBusy := by
  intro s l v r _ hl hs
  obtain ⟨t, x, hstep, hx, hword, hframe, ht, -⟩ := step_wr_memWrite hs (.inr hl)
  exact ⟨t, x, hstep, hx, hword, hframe, ht⟩

/-- A host read records some Word, with at most a free value used up (R44, R146). -/
theorem hostRead_frame (l : Loc) (s : State) : ∃ v n, hostRead l s = (s.setDraws n).addSeen (.word l v) := by
  cases hb : s.busy with
  | true => exact ⟨Config.freeWord s.draws, s.draws + 1, by rw [hostRead, if_pos hb]; rfl⟩
  | false => exact ⟨s.value l, (s.afterRead l).draws, by rw [hostRead, if_neg (by simp [hb])]; rfl⟩

/-- While BUSY = 0 a host read of a written location records the Word it holds (R36). -/
theorem hostRead_of_written {s : State} {l : Loc} {v : Word} (hb : s.busy = false) (h : s.word l = some v) :
    hostRead l s = s.addSeen (.word l v) := by
  simp [hostRead, hb, State.memRead_of_written h]

/-- Settles O33: a read of a written word while idle, and any read from any state. -/
theorem hostReadReturnsWord : Obligations.HostReadReturnsWord := by
  refine ⟨fun s l v r hb hs hw => ?_, fun s l r hs => ?_⟩
  · rw [step_of_rd hs, hostRead_of_written (by simpa using hb) (by simpa using hw)]
  · obtain ⟨v, n, e⟩ := hostRead_frame l (s.setScript r)
    exact ⟨_, v, by rw [step_of_rd hs, e], rfl, rfl⟩

/-! ### What a command has written before its last step -/

/-- A step action leaves OPR, RC and BUSY to the sequencer (R22). -/
theorem stepAction_sequencer (i : Instr) (s : State) : sameSequencer s (stepAction i s) := by
  cases i with
  | keySchedule => simp only [stepAction, keyScheduleStep]; split <;> exact ⟨rfl, rfl, rfl⟩
  | encrypt => simp only [stepAction, encryptStep]; split <;> exact ⟨rfl, rfl, rfl⟩
  | encryptKs => simp only [stepAction, encryptKsStep]; split <;> exact ⟨rfl, rfl, rfl⟩
  | decrypt => simp only [stepAction, decryptStep]; split <;> exact ⟨rfl, rfl, rfl⟩

/-- Before the last step a step action writes SCH[RC] in KEY_SCHEDULE and nothing in the other commands (R43, R92). -/
theorem stepAction_word_of_notLast {i : Instr} {s : State} {l : Loc} (hopr : s.opr = encode i)
    (hlast : s.atLast = false) (hl : i = .keySchedule → l ≠ .sch s.rc) : (stepAction i s).word l = s.word l := by
  have hrc : s.rc ≠ if s.opr = 0b11#2 then 0#5 else 31#5 := fun e => by simp [s.atLast_iff.2 e] at hlast
  rw [hopr] at hrc
  cases i with
  | keySchedule =>
    rw [stepAction, keyScheduleStep_mid hrc]
    exact s.word_memWrite_other s.k1 (hl rfl)
  | encrypt => rw [stepAction, encryptStep_mid hrc]; rfl
  | encryptKs => rw [stepAction, encryptKsStep_mid hrc]; rfl
  | decrypt => rw [stepAction, decryptStep_mid hrc]; rfl

/-- The step of a command before its last, as a whole. -/
theorem advance_stepAction_word_of_notLast {i : Instr} {s : State} {l : Loc} (hopr : s.opr = encode i)
    (hlast : s.atLast = false) (hl : i = .keySchedule → l ≠ .sch s.rc) :
    (stepAction i s).advance.word l = s.word l := by
  obtain ⟨ho, hr, -⟩ := stepAction_sequencer i s
  rw [State.advance_notLast ((State.atLast_congr ho hr).trans hlast), State.setRc_word,
    stepAction_word_of_notLast hopr hlast hl]

/-- The words a command may have written in its first `k` steps, before the last (R43, R92). -/
def writtenBefore (i : Instr) (k : Nat) : List Loc :=
  if i = .keySchedule then (List.range k).map (fun j => .sch (BitVec.ofNat 5 j)) else []

theorem mem_writtenBefore_succ {i : Instr} {k : Nat} {l : Loc} :
    l ∈ writtenBefore i (k + 1) ↔ l ∈ writtenBefore i k ∨ (i = .keySchedule ∧ l = .sch (BitVec.ofNat 5 k)) := by
  by_cases hi : i = .keySchedule
  · simp [writtenBefore, hi, List.range_succ]
  · simp [writtenBefore, hi]

theorem sameWords_writtenBefore_succ {i : Instr} {k : Nat} {s t : State} (h : sameWords s t (writtenBefore i k))
    (ht : AfterSteps i k t) (hk : k < 31) :
    sameWords s (stepAction i t).advance (writtenBefore i (k + 1)) := by
  intro l hl
  rw [mem_writtenBefore_succ, not_or, not_and] at hl
  obtain ⟨hold, hnew⟩ := hl
  have hlast : t.atLast = false := by rw [ht.atLast (by omega)]; simpa using hk.ne
  rw [advance_stepAction_word_of_notLast ht.opr hlast fun hi => ?_, h l hold]
  rw [ht.rc_forward (by simp [hi]) (by omega)]
  exact hnew hi

/-- Settles O43: by induction over the steps before the last, each of which writes at most SCH[RC]. -/
theorem buffersDuringCommand : Obligations.BuffersDuringCommand := by
  intro s i hb hs
  obtain ⟨s1, hstart, -, -, -, hmem, -⟩ := exec_idle_frame i hb
  have hword : ∀ l, s1.word l = s.word l := fun l => congrArg (·.find l.addr) hmem
  refine ⟨s1, hstart, fun k hk => ?_⟩
  obtain ⟨t, hrun, -, hwords⟩ := runFor_induction (n := 31) (s := s1)
    (fun k t => AfterSteps i k t ∧ sameWords s t (writtenBefore i k))
    ⟨.start i hb hs hstart, fun l _ => hword l⟩
    (fun k hk t ⟨hafter, hwords⟩ => by
      have hexec := exec_busy i (hafter.busy_true (by omega))
      exact ⟨_, (hafter.step_eq (by omega)).trans hexec, hafter.succ (by omega) hexec,
        sameWords_writtenBefore_succ hwords hafter hk⟩) k (by omega)
  refine ⟨t, hrun, fun hi => ?_, fun hi => ?_⟩
  · rwa [writtenBefore, if_neg hi] at hwords
  · rwa [writtenBefore, if_pos hi] at hwords

/-! ### The machine's invariant -/

theorem step_of_reset {s : State} {r : List ScriptLine} (h : s.script = .reset :: r) :
    step s = .next (hostReset (s.setScript r)) := by
  simp [step, runLine, h]

/-- Settles O16: after reset no word is listed and nothing is left open. -/
theorem resetStateMeetsInvariant : Obligations.ResetStateMeetsInvariant :=
  ⟨Memory.wf_nil, fun _ => rfl, List.forall_mem_nil _⟩

/-- The invariant speaks of the buffers, BUSY and the words left open only. -/
theorem machineInv_of_eq {s t : State} (h : MachineInv s) (hmem : t.mem = s.mem) (hbusy : t.busy = s.busy)
    (hdist : t.disturbed = s.disturbed) : MachineInv t := by
  unfold MachineInv
  rwa [hmem, hbusy, hdist]

theorem machineInv_memWrite {s : State} (l : Loc) (v : Word) (h : MachineInv s) : MachineInv (s.memWrite l v) := by
  obtain ⟨hwf, hidle, hopen⟩ := h
  exact ⟨State.wf_memWrite l v hwf, hidle, hopen⟩

/-- A disturbing write opens outputs only: the word itself and those still to be written (U4). -/
theorem machineInv_disturb {s : State} {l : Loc} (h : MachineInv s) (hb : s.busy = true)
    (hl : isInput l = false) : MachineInv (s.disturb l) := by
  obtain ⟨hwf, -, hopen⟩ := h
  have hbusy : (s.disturb l).busy = true := hb
  refine ⟨State.wf_drawInto l hwf, by simp [hbusy], fun l' hl' => ?_⟩
  rcases (s.mem_disturb l l').1 hl' with hold | rfl | hstill
  · exact hopen l' hold
  · exact hl
  · exact s.stillToWrite_output l' hstill

theorem machineInv_hostPut {s : State} (l : Loc) (x : Word) (h : MachineInv s) : MachineInv (s.hostPut l x) := by
  by_cases hput : s.busy = false ∨ isInput l = true
  · rw [State.hostPut_eq_memWrite x hput]
    exact machineInv_memWrite l x h
  · obtain ⟨hb, hl⟩ : s.busy = true ∧ isInput l = false := by simpa using hput
    rw [State.hostPut_output_busy x hb hl]
    exact machineInv_disturb h hb hl

theorem machineInv_hostWrite {s : State} (l : Loc) (v : HostVal) (h : MachineInv s) :
    MachineInv (hostWrite l v s) := by
  obtain ⟨x, n, e, -⟩ := hostWrite_eq_hostPut l v s
  rw [e]
  exact machineInv_hostPut l x h

theorem machineInv_hostRead {s : State} (l : Loc) (h : MachineInv s) : MachineInv (hostRead l s) := by
  obtain ⟨v, n, e⟩ := hostRead_frame l s
  rw [e]
  exact h

theorem machineInv_hostReset (s : State) : MachineInv (hostReset s) :=
  ⟨Memory.wf_nil, fun _ => rfl, List.forall_mem_nil _⟩

/-- The end of a command closes what the host left open. -/
theorem machineInv_settle_idle {u : State} (h : MachineInv u) : MachineInv (u.settle.setBusy false) := by
  obtain ⟨m, n, v, e, hwf, -⟩ := u.settle_frame
  rw [e]
  exact ⟨hwf h.1, fun _ => rfl, List.forall_mem_nil _⟩

theorem machineInv_advance {u : State} (h : MachineInv u) : MachineInv u.advance := by
  cases hlast : u.atLast with
  | true =>
    rw [State.advance_last hlast]
    exact machineInv_settle_idle h
  | false =>
    rw [State.advance_notLast hlast]
    exact machineInv_of_eq h rfl rfl rfl

/-- Both transitions of a command, its START and a step, keep the invariant. -/
theorem machineInv_exec {i : Instr} {s t : State} (h : MachineInv s) (hexec : exec i s = .next t) :
    MachineInv t := by
  cases hb : s.busy with
  | false =>
    obtain ⟨t', hstart, hbusy, -, -, hmem, -, -, hdist⟩ := exec_idle_frame i hb
    obtain rfl : t' = t := Host.Outcome.next.inj (hstart.symm.trans hexec)
    obtain ⟨hwf, -, hopen⟩ := h
    exact ⟨hmem ▸ hwf, by simp [hbusy], hdist ▸ hopen⟩
  | true =>
    obtain ⟨u, hstep, -, -, hbusy, -, -, hdist, hmem, -⟩ := exec_busy_frame i hb
    obtain rfl : u.advance = t := Host.Outcome.next.inj (hstep.symm.trans hexec)
    obtain ⟨hwf, hidle, hopen⟩ := h
    exact machineInv_advance ⟨hmem hwf, by rwa [hbusy, hdist], hdist ▸ hopen⟩

theorem machineInv_coreStep {s t : State} (h : MachineInv s) (hstep : coreStep s = .next t) : MachineInv t := by
  cases hb : s.busy with
  | false =>
    rw [coreStep_idle hb] at hstep
    exact Host.Outcome.next.inj hstep ▸ h
  | true =>
    rw [coreStep_busy hb] at hstep
    exact machineInv_exec h hstep

theorem machineInv_hostCmd {s t : State} {op : BitVec 2} (h : MachineInv s) (hcmd : hostCmd op s = .next t) :
    MachineInv t := by
  cases hb : s.busy with
  | false =>
    rw [hostCmd_idle op hb] at hcmd
    exact machineInv_exec h hcmd
  | true =>
    rw [hostCmd_busy op hb] at hcmd
    exact Host.Outcome.next.inj hcmd ▸ h

/-- Settles O58: by the script's next line, each line's operation keeping the invariant. -/
theorem stepKeepsInvariant : Obligations.StepKeepsInvariant := by
  intro s t h hstep
  have hline : ∀ r, MachineInv (s.setScript r) := fun _ => h
  match hs : s.script with
  | [] =>
    rw [step_of_no_line hs] at hstep
    exact machineInv_coreStep h hstep
  | .pass :: r =>
    rw [step_of_pass hs] at hstep
    exact machineInv_coreStep (hline r) hstep
  | .wait :: r =>
    cases hb : s.busy with
    | true =>
      rw [step_of_wait_busy hb hs] at hstep
      exact machineInv_coreStep h hstep
    | false =>
      rw [step_of_wait_idle hb hs] at hstep
      exact Host.Outcome.next.inj hstep ▸ hline r
  | .cmd op :: r =>
    rw [step_of_cmd hs] at hstep
    exact machineInv_hostCmd (hline r) hstep
  | .status :: r =>
    rw [step_of_status hs] at hstep
    exact Host.Outcome.next.inj hstep ▸ hline r
  | .wr l v :: r =>
    rw [step_of_wr hs] at hstep
    exact Host.Outcome.next.inj hstep ▸ machineInv_hostWrite l v (hline r)
  | .rd l :: r =>
    rw [step_of_rd hs] at hstep
    exact Host.Outcome.next.inj hstep ▸ machineInv_hostRead l (hline r)
  | .reset :: r =>
    rw [step_of_reset hs] at hstep
    exact Host.Outcome.next.inj hstep ▸ machineInv_hostReset (s.setScript r)

end Sys2Proof.Machine
end

section
/-! PROOFS. The statements on the encoding (30_encoding.md): the decoder and the encoder, the pseudo-lines of host
scripts, and RUN. A command's transitions do not look at the host's script, so a command under WAIT runs as the command
as a whole does with no host move due. -/

namespace Sys2Proof.Machine

open Safety

/-! ### The decoder and the encoder -/

/-- Settles O11: the four values of OP, as 2-bit values and as words of the table. -/
theorem commandTableDecodes : Obligations.CommandTableDecodes :=
  ⟨rfl, rfl, rfl, rfl, rfl, rfl, rfl, rfl⟩

theorem decode_eq_iff (op : BitVec 2) (i : Instr) : decode op = i ↔ op = encode i :=
  ⟨fun h => h ▸ (encode_decode op).symm, fun h => h ▸ decode_encode i⟩

theorem decodeNat_of_lt {w : Nat} (h : w < 4) : decodeNat w = .ok (decode (BitVec.ofNat 2 w)) := by
  simp [decodeNat, cmdWordOk, h]

theorem decodeNat_of_ge {w : Nat} (h : 4 ≤ w) : decodeNat w = .error .bitsAboveOp := by
  simp [decodeNat, cmdWordOk, h]

theorem decodeNat_eq_ok_iff (w : Nat) (i : Instr) : decodeNat w = .ok i ↔ w = (encode i).toNat := by
  have hi := (encode i).isLt
  rcases Nat.lt_or_ge w 4 with h | h
  · rw [decodeNat_of_lt h, Except.ok.injEq, decode_eq_iff, ← BitVec.toNat_inj, BitVec.toNat_ofNat, Nat.mod_eq_of_lt h]
  · rw [decodeNat_of_ge h]
    exact iff_of_false nofun (by omega)

theorem decodeNat_eq_error_iff (w : Nat) : decodeNat w = .error .bitsAboveOp ↔ 4 ≤ w := by
  rcases Nat.lt_or_ge w 4 with h | h
  · rw [decodeNat_of_lt h]
    exact iff_of_false nofun (by omega)
  · exact iff_of_true (decodeNat_of_ge h) h

/-- Settles O12: the decoder of numbers splits at 4, and below it is the decoder of 2-bit values. -/
theorem decodeEncodeAgree : Obligations.DecodeEncodeAgree :=
  ⟨decode_encode, encode_decode, fun i => (decodeNat_eq_ok_iff _ i).2 rfl, decodeNat_eq_ok_iff, decodeNat_eq_error_iff⟩

/-! ### Host lines while BUSY = 0 -/

/-- The poll that ends WAIT reads 0 (R64). -/
theorem step_of_wait_idle_status {s : State} {r : List ScriptLine} (hb : s.busy = false) (h : s.script = .wait :: r) :
    step s = .next ((s.setScript r).addSeen (.status 0#1)) := by
  rw [step_of_wait_idle hb h, hostStatus, State.statusWord_eq, State.setScript_busy, if_neg (by simp [hb])]

/-- Settles O37: the two cases of a WAIT line. -/
theorem waitPollsUntilIdle : Obligations.WaitPollsUntilIdle :=
  fun _ _ hs => ⟨fun hb => step_of_wait_busy hb hs, fun hb => step_of_wait_idle_status hb hs⟩

/-- While BUSY = 0 a host write whose value is known is a MemWrite of it (R44). -/
theorem hostWrite_idle {s : State} {l : Loc} {v : HostVal} {x : Word} (hb : s.busy = false)
    (hval : s.hostVal v = (x, s)) : hostWrite l v s = s.memWrite l x := by
  rw [hostWrite, hval]
  exact s.hostPut_idle l x hb

theorem step_wr_lit {s : State} {l : Loc} {x : Word} {r : List ScriptLine} (hb : s.busy = false)
    (hs : s.script = .wr l (.lit x) :: r) : step s = .next ((s.setScript r).memWrite l x) := by
  rw [step_of_wr hs, hostWrite_idle (by simpa using hb) rfl]

theorem step_wr_readOf {s : State} {l l' : Loc} {x : Word} {r : List ScriptLine} (hb : s.busy = false)
    (hs : s.script = .wr l (.readOf l') :: r) (hread : newestRead l' s.seen = some x) :
    step s = .next ((s.setScript r).memWrite l x) := by
  have hval : (s.setScript r).hostVal (.readOf l') = (x, s.setScript r) := by
    simp [State.hostVal, hread]
  rw [step_of_wr hs, hostWrite_idle (by simpa using hb) hval]

/-! ### MOVB -/

/-- Two reads of written words while BUSY = 0 record what the words hold. -/
theorem runFor_rd_rd (n : Nat) {s : State} {l l' : Loc} {v v' : Word} {r : List ScriptLine} (hb : s.busy = false)
    (hs : s.script = .rd l :: .rd l' :: r) (hl : s.word l = some v) (hl' : s.word l' = some v') :
    runFor (n + 2) s = runFor n (((s.setScript r).addSeen (.word l v)).addSeen (.word l' v')) :=
  (runFor_succ (n + 1) (hostReadReturnsWord.1 s l v _ hb hs hl)).trans
    (runFor_succ n (hostReadReturnsWord.1 ((s.setScript (.rd l' :: r)).addSeen (.word l v)) l' v' r hb rfl hl'))

/-- Two writes of values read before while BUSY = 0 put them at their locations. -/
theorem runFor_wr_wr_readOf (n : Nat) {s : State} {l l' m m' : Loc} {v v' : Word} {r : List ScriptLine}
    (hb : s.busy = false) (hs : s.script = .wr l (.readOf m) :: .wr l' (.readOf m') :: r)
    (hm : newestRead m s.seen = some v) (hm' : newestRead m' s.seen = some v') :
    runFor (n + 2) s = runFor n (((s.setScript r).memWrite l v).memWrite l' v') :=
  (runFor_succ (n + 1) (step_wr_readOf hb hs hm)).trans
    (runFor_succ n (step_wr_readOf (s := (s.setScript (.wr l' (.readOf m') :: r)).memWrite l v) hb rfl hm'))

/-- MOVB from an idle state: the two reads leave the words of BOUT newest in the record, where the two writes find
them. -/
theorem runFor_movb {s : State} {v : Pair} {r : List ScriptLine} (hb : s.busy = false) (hbout : HoldsBout s v)
    (hs : s.script = movb ++ r) :
    runFor 4 s = .next (((((s.setScript r).addSeen (.word (.bout 0) v.1)).addSeen (.word (.bout 1) v.2)).memWrite
      (.bin 0) v.1).memWrite (.bin 1) v.2) := by
  obtain ⟨hbout0, hbout1⟩ := hbout
  refine (runFor_rd_rd 2 hb hs hbout0 hbout1).trans (runFor_wr_wr_readOf 0 hb rfl ?_ ?_)
  · simp [newestRead]
  · simp [newestRead]

/-- Settles O38: the words MOVB leaves in BIN are those it read from BOUT. -/
theorem movbCopiesResultToInput : Obligations.MovbCopiesResultToInput := by
  intro s v r hb hbout hs
  refine ⟨_, runFor_movb hb hbout hs, ⟨?_, State.word_memWrite_self _ _ _⟩, fun l hl => ?_, rfl⟩
  · rw [State.word_memWrite_other _ _ (by decide), State.word_memWrite_self]
  · obtain ⟨hl0, hl1⟩ : l ≠ .bin 0 ∧ l ≠ .bin 1 := by simpa using hl
    rw [State.word_memWrite_other _ _ hl1, State.word_memWrite_other _ _ hl0]
    rfl

/-! ### LOADK, LOADB and LOADS -/

/-- The lines that write `val i` to `loc i`, index by index: the shape of R65's three loads. -/
def loadLines {ι : Type} (loc : ι → Loc) (val : ι → Word) (is : List ι) : List ScriptLine :=
  is.map fun i => .wr (loc i) (.lit (val i))

/-- The words of a pair by their index. -/
def pairAt (v : Pair) (i : Fin 2) : Word := if i = 0 then v.1 else v.2

theorem loadk_eq (v : Pair) : loadk v = loadLines .key (pairAt v) [0, 1] := rfl

theorem loadb_eq (v : Pair) : loadb v = loadLines .bin (pairAt v) [0, 1] := rfl

/-- The indices of SCH in the order of LOADS. -/
def schIndices : List (BitVec 5) := (List.range 32).map (BitVec.ofNat 5)

theorem loads_eq (v : Schedule) : loads v = loadLines .sch v schIndices := by
  simp [loads, loadLines, schIndices]

theorem map_sch_schIndices : schIndices.map Loc.sch = schedule := by
  simp [schIndices, schedule]

theorem mem_schIndices (i : BitVec 5) : i ∈ schIndices := by
  simpa [← map_sch_schIndices] using mem_schedule i

/-- While BUSY = 0 load lines leave each value at its location and touch nothing else but the script. -/
theorem runFor_loadLines {ι : Type} {loc : ι → Loc} (hloc : Function.Injective loc) (val : ι → Word) (is : List ι)
    {s : State} {r : List ScriptLine} (hb : s.busy = false) (hs : s.script = loadLines loc val is ++ r) :
    ∃ t, runFor is.length s = .next t ∧ (∀ i ∈ is, t.word (loc i) = some (val i)) ∧
      sameWords s t (is.map loc) ∧ t = { s with script := r, mem := t.mem } := by
  induction is generalizing s with
  | nil =>
    obtain rfl : s.script = r := hs
    exact ⟨s, rfl, by simp, fun _ _ => rfl, rfl⟩
  | cons i is ih =>
    have hstep := step_wr_lit hb hs
    obtain ⟨t, hrun, hheld, hframe, ht⟩ :=
      ih (s := (s.setScript (loadLines loc val is ++ r)).memWrite (loc i) (val i)) hb rfl
    have hfirst : t.word (loc i) = some (val i) := by
      by_cases hi : i ∈ is
      · exact hheld i hi
      · rw [hframe _ (by rwa [List.mem_map_of_injective hloc]), State.word_memWrite_self]
    refine ⟨t, (runFor_succ _ hstep).trans hrun, List.forall_mem_cons.2 ⟨hfirst, hheld⟩, fun l hl => ?_, ht⟩
    obtain ⟨hl0, hl⟩ : l ≠ loc i ∧ l ∉ is.map loc := by simpa using hl
    exact (hframe l hl).trans (State.word_memWrite_other _ _ hl0)

/-- Settles O39: the three loads are load lines. -/
theorem loadLinesFillBuffers : Obligations.LoadLinesFillBuffers := by
  refine ⟨fun s v r hb hs => ?_, fun s v r hb hs => ?_, fun s v r hb hs => ?_⟩
  · rw [loadk_eq] at hs
    obtain ⟨t, hrun, hheld, hframe⟩ := runFor_loadLines (fun _ _ => Loc.key.inj) (pairAt v) [0, 1] hb hs
    exact ⟨t, hrun, ⟨hheld 0 (by simp), hheld 1 (by simp)⟩, hframe⟩
  · rw [loadb_eq] at hs
    obtain ⟨t, hrun, hheld, hframe⟩ := runFor_loadLines (fun _ _ => Loc.bin.inj) (pairAt v) [0, 1] hb hs
    exact ⟨t, hrun, ⟨hheld 0 (by simp), hheld 1 (by simp)⟩, hframe⟩
  · rw [loads_eq] at hs
    obtain ⟨t, hrun, hheld, hframe⟩ := runFor_loadLines (fun _ _ => Loc.sch.inj) v schIndices hb hs
    rw [map_sch_schIndices] at hframe
    exact ⟨t, hrun, fun i => hheld i (mem_schIndices i), hframe⟩

/-! ### A command does not look at the host's script -/

theorem State.drawAll_setScript (ls : List Loc) (s : State) (r : List ScriptLine) :
    (s.setScript r).drawAll ls = (s.drawAll ls).setScript r := by
  induction ls generalizing s with
  | nil => rfl
  | cons l ls ih => exact ih (s.drawInto l)

theorem State.settle_setScript (s : State) (r : List ScriptLine) : (s.setScript r).settle = s.settle.setScript r := by
  cases hd : s.disturbed with
  | nil => rw [State.settle_of_nil hd, State.settle_of_nil (by simpa using hd)]
  | cons l ls =>
    simp only [State.settle, State.setScript_disturbed, hd, State.drawAll_setScript]
    rfl

theorem State.advance_setScript (s : State) (r : List ScriptLine) :
    (s.setScript r).advance = s.advance.setScript r := by
  have hlast : (s.setScript r).atLast = s.atLast := rfl
  cases h : s.atLast with
  | true =>
    rw [State.advance_last h, State.advance_last (hlast.trans h), State.settle_setScript]
    rfl
  | false =>
    rw [State.advance_notLast h, State.advance_notLast (hlast.trans h)]
    rfl

theorem stepAction_setScript (i : Instr) (s : State) (r : List ScriptLine) :
    stepAction i (s.setScript r) = (stepAction i s).setScript r := by
  cases i with
  | keySchedule => rw [stepAction, keyScheduleStep, keyScheduleStep, apply_ite (State.setScript · r)]; rfl
  | encrypt => rw [stepAction, encryptStep, encryptStep, apply_ite (State.setScript · r)]; rfl
  | encryptKs => rw [stepAction, encryptKsStep, encryptKsStep, apply_ite (State.setScript · r)]; rfl
  | decrypt => rw [stepAction, decryptStep, decryptStep, apply_ite (State.setScript · r)]; rfl

/-- START and step of a command are the same whatever lines the host still has (R24, R22). -/
theorem exec_setScript {i : Instr} {s t : State} (h : exec i s = .next t) (r : List ScriptLine) :
    exec i (s.setScript r) = .next (t.setScript r) := by
  cases hb : s.busy with
  | true =>
    rw [exec_busy i hb] at h
    cases h
    rw [exec_busy i (by simpa using hb), stepAction_setScript, State.advance_setScript]
  | false =>
    cases i with
    | keySchedule => rw [exec_keySchedule_idle hb] at h; cases h; exact exec_keySchedule_idle hb
    | encrypt => rw [exec_encrypt_idle hb] at h; cases h; exact exec_encrypt_idle hb
    | encryptKs => rw [exec_encryptKs_idle hb] at h; cases h; exact exec_encryptKs_idle hb
    | decrypt => rw [exec_decrypt_idle hb] at h; cases h; exact exec_decrypt_idle hb

/-! ### RUN -/

/-- Under WAIT a running command takes the step it takes with no host move due (R64, log 7). -/
theorem AfterSteps.step_wait {i : Instr} {k : Nat} {t t' : State} (h : AfterSteps i k t) (hk : k < 32)
    (hexec : exec i t = .next t') (r : List ScriptLine) :
    step (t.setScript (.wait :: r)) = .next (t'.setScript (.wait :: r)) := by
  have hb : (t.setScript (.wait :: r)).busy = true := h.busy_true hk
  rw [step_of_wait_busy hb rfl, coreStep_busy hb, State.setScript_opr, h.opr, decode_encode]
  exact exec_setScript hexec _

/-- The command as a whole and the same command under WAIT, side by side: their states differ in the script only. -/
theorem runCommand_under_wait {i : Instr} {s s1 : State} (hb : s.busy = false) (hs : s.script = [])
    (hstart : exec i s = .next s1) (r : List ScriptLine) :
    ∃ t, runCommand i s = .next t ∧ runFor 32 (s1.setScript (.wait :: r)) = .next (t.setScript (.wait :: r)) ∧
      t.busy = false := by
  obtain ⟨t, hrun, hafter, hwait⟩ := runFor_induction (n := 32) (s := s1)
    (fun k t => AfterSteps i k t ∧ runFor k (s1.setScript (.wait :: r)) = .next (t.setScript (.wait :: r)))
    ⟨.start i hb hs hstart, runFor_zero _⟩
    (fun k hk t ⟨hafter, hwait⟩ => by
      obtain ⟨t', hexec⟩ := exec_next i t
      exact ⟨t', (hafter.step_eq hk).trans hexec, hafter.succ hk hexec,
        runFor_snoc k hwait (hafter.step_wait hk hexec r)⟩) 32 le_rfl
  exact ⟨t, by rw [runCommand, hstart]; exact hrun, hwait, hafter.busy⟩

/-- Settles O40: START, the 32 steps under WAIT beside those of the command as a whole, and the poll that ends WAIT. It
holds for a disturbed start too: the end of a command does not look at the script either. -/
theorem runLineRunsCommand : Obligations.RunLineRunsCommand := by
  intro s i r hb _ hs
  obtain ⟨s1, hexec⟩ := exec_next i (s.setScript [])
  obtain ⟨t, hcommand, hwait, hidle⟩ := runCommand_under_wait (s := s.setScript []) hb rfl hexec r
  have hstart : step s = .next (s1.setScript (.wait :: r)) := by
    rw [step_of_cmd hs, hostCmd_idle _ (by simpa using hb), decode_encode]
    exact exec_setScript hexec (.wait :: r)
  have hpoll : step (t.setScript (.wait :: r)) = .next ((t.setScript r).addSeen (.status 0#1)) :=
    step_of_wait_idle_status hidle rfl
  exact ⟨t, hcommand, runFor_snoc 33 ((runFor_succ 32 hstart).trans hwait) hpoll⟩

end Sys2Proof.Machine
end

section
/-! PROOFS. The statements on the word primitives and the round transformation (40_round.md): a left rotation is a right
rotation by the rest of the width, and INV_ROUND takes back the steps of ROUND one by one. -/

namespace Sys2Proof.Machine

/-! ### ADD64, SUB64 and XOR64 -/

@[simp] theorem sub64_add64 (a b : Word) : sub64 (add64 a b) b = a := BitVec.add_sub_cancel a b

@[simp] theorem add64_sub64 (a b : Word) : add64 (sub64 a b) b = a := BitVec.sub_add_cancel a b

theorem toNat_sub64_of_lt {a b : Word} (h : a.toNat < b.toNat) :
    (sub64 a b).toNat = a.toNat + 2 ^ 64 - b.toNat := by
  rw [sub64, BitVec.toNat_sub_of_lt h]
  omega

@[simp] theorem xor64_xor64 (a b : Word) : xor64 (xor64 a b) b = a := by
  rw [xor64, xor64, BitVec.xor_assoc, BitVec.xor_self, BitVec.xor_zero]

/-- Settles O1: wrapping addition of words is addition of numbers modulo 2^64. -/
theorem add64IsSumModulo : Obligations.Add64IsSumModulo :=
  ⟨BitVec.toNat_add, BitVec.add_comm, BitVec.add_assoc, BitVec.add_zero, by decide, by decide, by decide, by decide⟩

/-- Settles O2: the two cases of the borrow, and the laws of wrapping subtraction. -/
theorem sub64IsDifferenceModulo : Obligations.Sub64IsDifferenceModulo :=
  ⟨fun _ _ => BitVec.toNat_sub_of_le, fun _ _ => toNat_sub64_of_lt, sub64_add64, add64_sub64, BitVec.sub_zero,
    BitVec.sub_self, by decide, by decide, by decide⟩

/-- Settles O3: the exclusive-or of words acts on each bit. -/
theorem xor64IsBitwise : Obligations.Xor64IsBitwise :=
  ⟨fun _ _ _ _ => BitVec.getLsbD_xor, BitVec.xor_comm, BitVec.xor_assoc, xor64_xor64, fun _ => BitVec.xor_zero,
    fun _ => BitVec.xor_self, fun _ => BitVec.xor_allOnes, by decide⟩

/-! ### The rotations -/

/-- Bit `n` of a right rotation comes from the right shift while `n + r` is below 64, and from the left shift after. -/
theorem getLsbD_ror64 (a : Word) {r n : Nat} (hr : r < 64) (hn : n < 64) :
    (ror64 a r).getLsbD n = a.getLsbD ((n + r) % 64) := by
  rw [ror64, BitVec.getLsbD_or, BitVec.getLsbD_ushiftRight, BitVec.getLsbD_shiftLeft]
  rcases Nat.lt_or_ge (n + r) 64 with h | h
  · have hleft : n < 64 - r := by omega
    rw [Nat.mod_eq_of_lt h, Nat.add_comm]
    simp [hleft]
  · have hleft : ¬ n < 64 - r := by omega
    have hindex : (n + r) % 64 = n - (64 - r) := by omega
    rw [hindex, BitVec.getLsbD_of_ge a (r + n) (by omega)]
    simp [hn, hleft]

theorem toNat_ror64_eq_shifts (a : Word) (r : Nat) :
    (ror64 a r).toNat = (a.toNat >>> r ||| a.toNat <<< (64 - r)) % 2 ^ 64 := by
  have hright : a.toNat >>> r < 2 ^ 64 := (Nat.shiftRight_le _ _).trans_lt a.isLt
  rw [ror64, BitVec.toNat_or, BitVec.toNat_ushiftRight, BitVec.toNat_shiftLeft, Nat.or_mod_two_pow,
    Nat.mod_eq_of_lt hright]

/-- The two shifts of a right rotation do not overlap: joined they are the low `r` bits above the others. -/
theorem toNat_ror64_eq_concat (a : Word) {r : Nat} (hr : r ≤ 64) :
    (ror64 a r).toNat = (a.toNat % 2 ^ r) * 2 ^ (64 - r) + a.toNat / 2 ^ r := by
  have hsplit : 2 ^ 64 = 2 ^ r * 2 ^ (64 - r) := by rw [← pow_add, Nat.add_sub_cancel' hr]
  have hhigh : a.toNat / 2 ^ r < 2 ^ (64 - r) := Nat.div_lt_of_lt_mul (hsplit ▸ a.isLt)
  rw [ror64, BitVec.toNat_or, BitVec.toNat_ushiftRight, BitVec.toNat_shiftLeft, Nat.shiftRight_eq_div_pow,
    Nat.shiftLeft_eq, hsplit, Nat.mul_mod_mul_right, ← Nat.shiftLeft_eq, Nat.or_comm,
    Nat.shiftLeft_add_eq_or_of_lt hhigh]

/-- A left rotation is the right rotation by the rest of the width; with it the left rotation's laws are read off the
right rotation's. -/
theorem rol64_eq_ror64 (a : Word) {r : Nat} (hr : r ≤ 64) : rol64 a r = ror64 a (64 - r) := by
  rw [rol64, ror64, Nat.sub_sub_self hr, BitVec.or_comm]

theorem getLsbD_rol64 (a : Word) {r n : Nat} (hr0 : 0 < r) (hr : r < 64) (hn : n < 64) :
    (rol64 a r).getLsbD n = a.getLsbD ((n + 64 - r) % 64) := by
  rw [rol64_eq_ror64 a hr.le, getLsbD_ror64 a (Nat.sub_lt (by decide) hr0) hn, ← Nat.add_sub_assoc hr.le]

theorem toNat_rol64_eq_shifts (a : Word) {r : Nat} (hr : r < 64) :
    (rol64 a r).toNat = (a.toNat <<< r ||| a.toNat >>> (64 - r)) % 2 ^ 64 := by
  rw [rol64_eq_ror64 a hr.le, toNat_ror64_eq_shifts, Nat.sub_sub_self hr.le, Nat.or_comm]

theorem toNat_rol64_eq_concat (a : Word) {r : Nat} (hr : r < 64) :
    (rol64 a r).toNat = (a.toNat % 2 ^ (64 - r)) * 2 ^ r + a.toNat / 2 ^ (64 - r) := by
  rw [rol64_eq_ror64 a hr.le, toNat_ror64_eq_concat a (Nat.sub_le _ _), Nat.sub_sub_self hr.le]

/-- Rotating right by two amounts that fill the width is no rotation. -/
theorem ror64_ror64_of_add_eq (a : Word) {r t : Nat} (hr : r < 64) (ht : t < 64) (hsum : r + t = 64) :
    ror64 (ror64 a r) t = a := by
  refine BitVec.eq_of_getLsbD_eq fun n hn => ?_
  have hindex : ((n + t) % 64 + r) % 64 = n := by omega
  rw [getLsbD_ror64 _ ht hn, getLsbD_ror64 _ hr (Nat.mod_lt _ (by decide)), hindex]

theorem rol64_ror64 (a : Word) {r : Nat} (hr0 : 0 < r) (hr : r < 64) : rol64 (ror64 a r) r = a := by
  rw [rol64_eq_ror64 _ hr.le]
  exact ror64_ror64_of_add_eq a hr (by omega) (by omega)

theorem ror64_rol64 (a : Word) {r : Nat} (hr0 : 0 < r) (hr : r < 64) : ror64 (rol64 a r) r = a := by
  rw [rol64_eq_ror64 _ hr.le]
  exact ror64_ror64_of_add_eq a (by omega) hr (by omega)

/-- Settles O4: the three forms of the right rotation, and the rule's words. -/
theorem ror64RotatesRight : Obligations.Ror64RotatesRight :=
  ⟨fun a _ _ hr _ hn => getLsbD_ror64 a hr hn,
    fun a r _ hr => ⟨toNat_ror64_eq_shifts a r, toNat_ror64_eq_concat a hr.le⟩,
    by decide, by decide, by decide, by decide, by decide, by decide, by decide⟩

/-- Settles O5: the three forms of the left rotation, and the rule's words. -/
theorem rol64RotatesLeft : Obligations.Rol64RotatesLeft :=
  ⟨fun a _ hr0 hr _ hn => getLsbD_rol64 a hr0 hr hn,
    fun a _ _ hr => ⟨toNat_rol64_eq_shifts a hr, toNat_rol64_eq_concat a hr⟩,
    by decide, by decide, by decide, by decide, by decide, by decide⟩

/-- Settles O6: the laws above; 0xff + 1 carries across the bit where a rotation by 8 cuts the word, and 1 + 1 carries
unless the exclusive-or has cleared the bit first. -/
theorem primitivesUndoEachOther : Obligations.PrimitivesUndoEachOther :=
  ⟨fun a _ hr0 hr => ⟨rol64_ror64 a hr0 hr, ror64_rol64 a hr0 hr⟩, sub64_add64, xor64_xor64,
    ⟨0xff, 1, by decide⟩, ⟨1, 1, 1, by decide⟩⟩

/-! ### ROUND and INV_ROUND -/

/-- Settles O7: both closed forms are the definitions with the steps put in, and a round on a register pair reads the
old pair. -/
theorem roundClosedForm : Obligations.RoundClosedForm :=
  ⟨fun _ _ _ => ⟨rfl, rfl⟩, fun _ _ => rfl, fun _ => rfl⟩

/-- Settles O8: the definition's steps put into each other. -/
theorem invRoundClosedForm : Obligations.InvRoundClosedForm :=
  fun _ _ _ => ⟨rfl, rfl⟩

theorem fwdRound_eq (p q k : Word) : fwdRound p q k =
    (xor64 (add64 (ror64 p 8) q) k, xor64 (rol64 q 3) (xor64 (add64 (ror64 p 8) q) k)) := rfl

theorem invRound_eq (p q k : Word) : invRound p q k =
    (rol64 (sub64 (xor64 p k) (ror64 (xor64 q p) 3)) 8, ror64 (xor64 q p) 3) := rfl

/-- Each step of INV_ROUND undoes the step of ROUND at the other end: XOR64, ROL64, XOR64, ADD64, ROR64 (R75). -/
theorem invRound_fwdRound (p q k : Word) : invRound (fwdRound p q k).1 (fwdRound p q k).2 k = (p, q) := by
  have hq : ror64 (rol64 q 3) 3 = q := ror64_rol64 q (by decide) (by decide)
  have hp : rol64 (ror64 p 8) 8 = p := rol64_ror64 p (by decide) (by decide)
  simp only [fwdRound_eq, invRound_eq, xor64_xor64, hq, sub64_add64, hp]

theorem fwdRound_invRound (p q k : Word) : fwdRound (invRound p q k).1 (invRound p q k).2 k = (p, q) := by
  have hp (a : Word) : ror64 (rol64 a 8) 8 = a := ror64_rol64 a (by decide) (by decide)
  have hq (a : Word) : rol64 (ror64 a 3) 3 = a := rol64_ror64 a (by decide) (by decide)
  simp only [fwdRound_eq, invRound_eq, hp, add64_sub64, xor64_xor64, hq]

/-- Settles O9: INV_ROUND takes the five steps of ROUND back from the last. -/
theorem invRoundUndoesRound : Obligations.InvRoundUndoesRound := invRound_fwdRound

/-- Settles O10: a map with an inverse on both sides is a bijection. -/
theorem roundIsBijective : Obligations.RoundIsBijective := by
  intro k
  have hleft : Function.LeftInverse (fun v : Pair => invRound v.1 v.2 k) (fun v : Pair => fwdRound v.1 v.2 k) :=
    fun v => invRound_fwdRound v.1 v.2 k
  have hright : Function.RightInverse (fun v : Pair => invRound v.1 v.2 k) (fun v : Pair => fwdRound v.1 v.2 k) :=
    fun v => fwdRound_invRound v.1 v.2 k
  exact ⟨⟨hleft.injective, hright.surjective⟩, hleft, hright⟩

end Sys2Proof.Machine
end

section
/-! PROOFS. The statements on KEY_SCHEDULE (41_key_schedule.md): its START, its step before and at the last index as an
update of the state, and the command as a whole. -/

namespace Sys2Proof.Machine

open Safety

/-! ### The command as a whole -/

/-- The index a command ends at: RC stays in the last step (R22). -/
theorem AfterSteps.rc_end {i : Instr} {t : State} (h : AfterSteps i 32 t) :
    t.rc = if i = .decrypt then 0#5 else 31#5 := by
  rw [← BitVec.toNat_inj, h.rc, indexAfter]
  split <;> rfl

/-- Settles O45: the loop invariant `KeyScheduleData` at 32 steps, where the key pair has been advanced 31 times. -/
theorem keyScheduleFunctionForm : Obligations.KeyScheduleFunctionForm := by
  intro s key hs hkey
  obtain ⟨t, hrun, hafter, hidle, hdata⟩ := keySchedule_result hs hkey
  exact ⟨t, hrun, hidle, hdata.holdsSch, hdata.words, hdata.block, hdata.keys, hafter.opr, hafter.rc_end, hdata.draws⟩

/-! ### One step -/

/-- A step before the last: K1 is stored, the key pair advances, RC moves up (R83, R22). -/
theorem exec_keySchedule_mid {s : State} (hb : s.busy = true) (ho : s.opr = 0b00#2) (hrc : s.rc ≠ 31#5) :
    exec .keySchedule s = .next ((s.memWrite (.sch s.rc) s.k1).keyAdvance.setRc (s.rc + 1#5)) := by
  have hadvance : (s.memWrite (.sch s.rc) s.k1).keyAdvance.advance = _ :=
    State.advance_forward (by simp [ho]) (by simpa using hrc)
  rw [exec_keySchedule_busy hb, keyScheduleStep_mid hrc, hadvance]
  rfl

/-- The last step of an undisturbed command: K1 is stored and BUSY falls (R83, R22). -/
theorem exec_keySchedule_last {s : State} (hb : s.busy = true) (ho : s.opr = 0b00#2) (hrc : s.rc = 31#5)
    (hd : s.disturbed = []) :
    exec .keySchedule s = .next ((s.memWrite (.sch s.rc) s.k1).setBusy false) := by
  have hadvance : (s.memWrite (.sch s.rc) s.k1).advance = _ :=
    State.advance_forward_last (by simp [ho]) (by simpa using hrc)
  rw [exec_keySchedule_busy hb, keyScheduleStep_last hrc, hadvance, State.settle_of_nil (by simpa using hd)]

/-- Settles O28: the two forms of the step, and MemWrite's law for the words. (The obligation's own name is the step
action's in the model.) -/
theorem keyScheduleStepAtEveryIndex : Obligations.KeyScheduleStep := by
  intro s hb ho hd
  have hstored : (s.memWrite (.sch s.rc) s.k1).word (.sch s.rc) = some s.k1 := s.word_memWrite_self _ _
  have hframe : sameWords s (s.memWrite (.sch s.rc) s.k1) [.sch s.rc] :=
    fun l hl => s.word_memWrite_other _ (by simpa using hl)
  by_cases hrc : s.rc = 31#5
  · exact ⟨_, exec_keySchedule_last hb ho hrc (hd hrc), hstored, hframe, (absurd hrc ·),
      fun _ => ⟨⟨rfl, rfl⟩, hrc, rfl⟩, ⟨rfl, rfl⟩, rfl, ⟨rfl, rfl⟩, rfl, rfl⟩
  · exact ⟨_, exec_keySchedule_mid hb ho hrc, hstored, hframe, fun _ => ⟨rfl, rc_up hrc, hb⟩, (absurd · hrc),
      ⟨rfl, rfl⟩, rfl, ⟨rfl, rfl⟩, rfl, rfl⟩

/-! ### START -/

theorem State.loadKey_k0_of_written {s : State} {v : Word} (h : s.word (.key 0) = some v) : s.loadKey.k0 = v :=
  State.value_of_written h

/-- The first read of a load, whether it takes a free value or not, leaves the second word as it is (R36). -/
theorem State.loadKey_k1_of_written {s : State} {v : Word} (h : s.word (.key 1) = some v) : s.loadKey.k1 = v :=
  State.value_of_written (s := s.afterRead (.key 0)) h

/-- Settles O24: START sets OPR, RC and BUSY around the load of the key, which reads a written word as it is. -/
theorem keyScheduleStart : Obligations.KeyScheduleStart := by
  intro s hb
  exact ⟨_, exec_keySchedule_idle hb, rfl, rfl, rfl,
    fun _ => State.loadKey_k0_of_written (s := (s.setOpr 0b00#2).setRc 0#5),
    fun _ => State.loadKey_k1_of_written (s := (s.setOpr 0b00#2).setRc 0#5),
    ⟨rfl, rfl⟩, fun _ _ => rfl, ⟨rfl, rfl⟩, rfl⟩

end Sys2Proof.Machine
end

section
/-! PROOFS. The statements on ENCRYPT and ENCRYPT_KS (42_encrypt.md): each command as a whole, with the loop of ENCRYPT
as 32 rounds under the key's schedule; each step before and at the last index; each START. -/

namespace Sys2Proof.Machine

open Safety

/-! ### The commands as functions -/

/-- The key pair of ENCRYPT's loop runs through the key sequence, whatever the block (R93). -/
theorem encLoop_keys (pt key : Pair) (k : Nat) : (encLoop pt key k).2 = keySeq key k := by
  induction k with
  | zero => rfl
  | succ k ih => rw [encLoop_succ, ih, keySeq]

theorem ks_ofNat (key : Pair) {k : Nat} (hk : k < 32) : ks key (BitVec.ofNat 5 k) = (keySeq key k).2 := by
  rw [ks, BitVec.toNat_ofNat, Nat.mod_eq_of_lt hk]

/-- The block pair of ENCRYPT's loop goes through the rounds keyed by the words KEY_SCHEDULE stores (R93, R98). -/
theorem encLoop_block (pt key : Pair) {k : Nat} (hk : k ≤ 32) : (encLoop pt key k).1 = encSeq pt (ks key) k := by
  induction k with
  | zero => rfl
  | succ k ih => rw [encLoop_succ, ih (by omega), encLoop_keys, encSeq, ks_ofNat key (by omega)]

theorem enc_eq_encKs (pt key : Pair) : enc pt key = encKs pt (ks key) := encLoop_block pt key le_rfl

/-- Settles O46: the loop invariant of `encrypt_result` at 32 steps; the loop's key pair is the key sequence. -/
theorem encryptFunctionForm : Obligations.EncryptFunctionForm := by
  refine ⟨fun s pt key hs hbin hkey => ?_, fun pt key => ⟨enc_eq_encKs pt key, enc_eq_encKs pt key⟩⟩
  obtain ⟨t, hrun, hafter, hidle, hdata⟩ := encrypt_result hs hbin hkey
  exact ⟨t, hrun, hidle, hdata.bout rfl, hdata.words, hdata.block, hdata.keys.trans (encLoop_keys pt key 32),
    hafter.opr, hafter.rc_end, hdata.draws⟩

/-- Settles O47: the loop invariant of `encryptKs_result` at 32 steps. -/
theorem encryptKsFunctionForm : Obligations.EncryptKsFunctionForm := by
  refine ⟨fun s pt sch hs hbin hsch => ?_, enc_eq_encKs⟩
  obtain ⟨t, hrun, hafter, hidle, hdata⟩ := encryptKs_result hs hbin hsch
  obtain ⟨hk0, hk1⟩ := Prod.mk.inj hdata.keys
  exact ⟨t, hrun, hidle, hdata.bout rfl, hdata.words, hdata.block, ⟨hk0, hk1⟩, hafter.opr, hafter.rc_end, hdata.draws⟩

/-! ### One step -/

theorem State.holdsBout_writeBack (u : State) : HoldsBout u.writeBack (u.w0, u.w1) :=
  ⟨by simp [State.word_writeBack], by simp [State.word_writeBack]⟩

theorem State.sameWords_writeBack (u : State) : sameWords u u.writeBack [.bout 0, .bout 1] := by
  intro l hl
  simp only [List.mem_cons, List.not_mem_nil, or_false, not_or] at hl
  rw [State.word_writeBack, if_neg hl.1, if_neg hl.2]

/-- The end of an undisturbed forward block command: BUSY falls after the write-back, nothing else (R22). -/
theorem State.advance_writeBack {u : State} (ho : u.opr ≠ 0b11#2) (hrc : u.rc = 31#5) (hd : u.disturbed = []) :
    u.writeBack.advance = u.writeBack.setBusy false := by
  rw [State.advance_forward_last (s := u.writeBack) ho hrc, State.settle_of_nil (s := u.writeBack) hd]

/-- A step before the last: the block round keyed by K1, the key advance, RC moves up (R91, R22). -/
theorem exec_encrypt_mid {s : State} (hb : s.busy = true) (ho : s.opr = 0b01#2) (hrc : s.rc ≠ 31#5) :
    exec .encrypt s = .next ((s.blockRound s.k1).keyAdvance.setRc (s.rc + 1#5)) := by
  have hadvance : (s.blockRound s.k1).keyAdvance.advance = _ :=
    State.advance_forward (by simp [ho]) (by simpa using hrc)
  rw [exec_encrypt_busy hb, encryptStep_mid hrc, hadvance]
  rfl

/-- The last step of an undisturbed command, key advance included: the result is written and BUSY falls (R91, R92). -/
theorem exec_encrypt_last {s : State} (hb : s.busy = true) (ho : s.opr = 0b01#2) (hrc : s.rc = 31#5)
    (hd : s.disturbed = []) :
    exec .encrypt s = .next ((s.blockRound s.k1).keyAdvance.writeBack.setBusy false) := by
  rw [exec_encrypt_busy hb, encryptStep_last hrc,
    State.advance_writeBack (by simp [ho]) (by simpa using hrc) (by simpa using hd)]

/-- Settles O29: the two forms of the step, and the write-back's law for the words. (The obligation's own name is the
step action's in the model.) -/
theorem encryptStepAtEveryIndex : Obligations.EncryptStep := by
  intro s hb ho hd
  by_cases hrc : s.rc = 31#5
  · have hbout := (s.blockRound s.k1).keyAdvance.holdsBout_writeBack
    have hwords := (s.blockRound s.k1).keyAdvance.sameWords_writeBack
    exact ⟨_, exec_encrypt_last hb ho hrc (hd hrc), rfl, rfl, (absurd hrc ·), fun _ => ⟨hbout, hwords, hrc, rfl⟩,
      rfl, ⟨rfl, rfl⟩, rfl, rfl⟩
  · exact ⟨_, exec_encrypt_mid hb ho hrc, rfl, rfl, fun _ => ⟨fun _ _ => rfl, rc_up hrc, hb⟩, (absurd · hrc),
      rfl, ⟨rfl, rfl⟩, rfl, rfl⟩

/-- A step before the last: the block round keyed by what a read of SCH[RC] returns, RC moves up (R97, R22). -/
theorem exec_encryptKs_mid {s : State} (hb : s.busy = true) (ho : s.opr = 0b10#2) (hrc : s.rc ≠ 31#5) :
    exec .encryptKs s =
      .next (((s.afterRead (.sch s.rc)).blockRound (s.value (.sch s.rc))).setRc (s.rc + 1#5)) := by
  have hadvance : ((s.afterRead (.sch s.rc)).blockRound (s.value (.sch s.rc))).advance = _ :=
    State.advance_forward (by simp [ho]) (by simpa using hrc)
  rw [exec_encryptKs_busy hb, encryptKsStep_mid hrc, hadvance]
  rfl

/-- The last step of an undisturbed command: the result is written and BUSY falls (R97, R22). -/
theorem exec_encryptKs_last {s : State} (hb : s.busy = true) (ho : s.opr = 0b10#2) (hrc : s.rc = 31#5)
    (hd : s.disturbed = []) :
    exec .encryptKs s =
      .next (((s.afterRead (.sch s.rc)).blockRound (s.value (.sch s.rc))).writeBack.setBusy false) := by
  rw [exec_encryptKs_busy hb, encryptKsStep_last hrc,
    State.advance_writeBack (by simp [ho]) (by simpa using hrc) (by simpa using hd)]

/-- Settles O30: the two forms of the step, with `k` what the read of SCH[RC] returns. (The obligation's own name is the
step action's in the model.) -/
theorem encryptKsStepAtEveryIndex : Obligations.EncryptKsStep := by
  intro s hb ho hd
  have hread : ∀ v, s.word (.sch s.rc) = some v →
      s.value (.sch s.rc) = v ∧ (s.afterRead (.sch s.rc)).draws = s.draws :=
    fun v hv => ⟨State.value_of_written hv, congrArg State.draws (State.afterRead_of_written hv)⟩
  by_cases hrc : s.rc = 31#5
  · have hbout := ((s.afterRead (.sch s.rc)).blockRound (s.value (.sch s.rc))).holdsBout_writeBack
    have hwords := ((s.afterRead (.sch s.rc)).blockRound (s.value (.sch s.rc))).sameWords_writeBack
    exact ⟨_, _, exec_encryptKs_last hb ho hrc (hd hrc), hread, rfl, (absurd hrc ·),
      fun _ => ⟨hbout, hwords, hrc, rfl⟩, ⟨rfl, rfl⟩, rfl, ⟨rfl, rfl⟩, rfl⟩
  · exact ⟨_, _, exec_encryptKs_mid hb ho hrc, hread, rfl, fun _ => ⟨fun _ _ => rfl, rc_up hrc, hb⟩,
      (absurd · hrc), ⟨rfl, rfl⟩, rfl, ⟨rfl, rfl⟩, rfl⟩

/-! ### START -/

theorem State.loadBlock_w0_of_written {s : State} {v : Word} (h : s.word (.bin 0) = some v) : s.loadBlock.w0 = v :=
  State.value_of_written h

/-- As for the key: the first read leaves the second word as it is (R36). -/
theorem State.loadBlock_w1_of_written {s : State} {v : Word} (h : s.word (.bin 1) = some v) : s.loadBlock.w1 = v :=
  State.value_of_written (s := s.afterRead (.bin 0)) h

/-- Settles O25: the load of the key follows that of the block, which leaves KEY as it is. -/
theorem encryptStart : Obligations.EncryptStart := by
  intro s hb
  exact ⟨_, exec_encrypt_idle hb, rfl, rfl, rfl,
    fun _ => State.loadBlock_w0_of_written (s := (s.setOpr 0b01#2).setRc 0#5),
    fun _ => State.loadBlock_w1_of_written (s := (s.setOpr 0b01#2).setRc 0#5),
    fun _ => State.loadKey_k0_of_written (s := ((s.setOpr 0b01#2).setRc 0#5).loadBlock),
    fun _ => State.loadKey_k1_of_written (s := ((s.setOpr 0b01#2).setRc 0#5).loadBlock),
    fun _ _ => rfl, ⟨rfl, rfl⟩, rfl⟩

/-- Settles O26: START sets OPR, RC and BUSY around the load of the block, which reads a written word as it is. -/
theorem encryptKsStart : Obligations.EncryptKsStart := by
  intro s hb
  exact ⟨_, exec_encryptKs_idle hb, rfl, rfl, rfl,
    fun _ => State.loadBlock_w0_of_written (s := (s.setOpr 0b10#2).setRc 0#5),
    fun _ => State.loadBlock_w1_of_written (s := (s.setOpr 0b10#2).setRc 0#5),
    ⟨rfl, rfl⟩, fun _ _ => rfl, ⟨rfl, rfl⟩, rfl⟩

end Sys2Proof.Machine
end

section
/-! PROOFS. The statements on DECRYPT (43_decrypt.md): the command as a whole, whose inverse rounds take back the rounds
of ENCRYPT_KS from the last to the first; its step before and at index 0; its START. -/

namespace Sys2Proof.Machine

open Safety

/-! ### The command as a function -/

/-- The loop of DECRYPT runs back along the loop of ENCRYPT_KS: `n` inverse rounds from the ciphertext reach the pair
that ENCRYPT_KS had `n` rounds before its end (R104). -/
theorem decSeq_encKs (pt : Pair) (sch : Schedule) {n : Nat} (hn : n ≤ 32) :
    decSeq (encKs pt sch) sch n = encSeq pt sch (32 - n) := by
  induction n with
  | zero => rfl
  | succ n ih =>
    have hround : 32 - n = 31 - n + 1 := by omega
    have hleft : 32 - (n + 1) = 31 - n := by omega
    rw [decSeq, ih (by omega), hround, hleft, encSeq, invRound_fwdRound]

theorem dec_encKs (pt : Pair) (sch : Schedule) : dec (encKs pt sch) sch = pt := decSeq_encKs pt sch le_rfl

/-- Settles O48: the loop invariant of `decrypt_result` at 32 steps, and DECRYPT's loop run back along ENCRYPT_KS's. -/
theorem decryptFunctionForm : Obligations.DecryptFunctionForm := by
  refine ⟨fun s ct sch hs hbin hsch => ?_, dec_encKs⟩
  obtain ⟨t, hrun, hafter, hidle, hdata⟩ := decrypt_result hs hbin hsch
  obtain ⟨hk0, hk1⟩ := Prod.mk.inj hdata.keys
  exact ⟨t, hrun, hidle, hdata.bout rfl, hdata.words, hdata.block, ⟨hk0, hk1⟩, hafter.opr, hafter.rc_end, hdata.draws⟩

/-! ### One step -/

/-- A step before the last: the inverse round keyed by what a read of SCH[RC] returns, RC moves down (R102, R22). -/
theorem exec_decrypt_mid {s : State} (hb : s.busy = true) (ho : s.opr = 0b11#2) (hrc : s.rc ≠ 0#5) :
    exec .decrypt s =
      .next (((s.afterRead (.sch s.rc)).blockInvRound (s.value (.sch s.rc))).setRc (s.rc - 1#5)) := by
  rw [exec_decrypt_busy hb, decryptStep_mid hrc, State.advance_decrypt (by simpa using ho) (by simpa using hrc)]
  rfl

/-- The last step of an undisturbed command: the result is written and BUSY falls (R103, R22). -/
theorem exec_decrypt_last {s : State} (hb : s.busy = true) (ho : s.opr = 0b11#2) (hrc : s.rc = 0#5)
    (hd : s.disturbed = []) :
    exec .decrypt s =
      .next (((s.afterRead (.sch s.rc)).blockInvRound (s.value (.sch s.rc))).writeBack.setBusy false) := by
  rw [exec_decrypt_busy hb, decryptStep_last hrc, State.advance_decrypt_last (by simpa using ho) (by simpa using hrc),
    State.settle_of_nil (by simpa using hd)]

/-- Settles O31: the two forms of the step, with `k` what the read of SCH[RC] returns. (The obligation's own name is the
step action's in the model.) -/
theorem decryptStepAtEveryIndex : Obligations.DecryptStep := by
  intro s hb ho hd
  have hread : ∀ v, s.word (.sch s.rc) = some v →
      s.value (.sch s.rc) = v ∧ (s.afterRead (.sch s.rc)).draws = s.draws :=
    fun v hv => ⟨State.value_of_written hv, congrArg State.draws (State.afterRead_of_written hv)⟩
  by_cases hrc : s.rc = 0#5
  · have hbout := ((s.afterRead (.sch s.rc)).blockInvRound (s.value (.sch s.rc))).holdsBout_writeBack
    have hwords := ((s.afterRead (.sch s.rc)).blockInvRound (s.value (.sch s.rc))).sameWords_writeBack
    exact ⟨_, _, exec_decrypt_last hb ho hrc (hd hrc), hread, rfl, (absurd hrc ·),
      fun _ => ⟨hbout, hwords, hrc, rfl⟩, ⟨rfl, rfl⟩, rfl, ⟨rfl, rfl⟩, rfl⟩
  · exact ⟨_, _, exec_decrypt_mid hb ho hrc, hread, rfl, fun _ => ⟨fun _ _ => rfl, rc_down hrc, hb⟩,
      (absurd · hrc), ⟨rfl, rfl⟩, rfl, ⟨rfl, rfl⟩, rfl⟩

/-! ### START -/

/-- Settles O27: START sets OPR, RC and BUSY around the load of the block, which reads a written word as it is. -/
theorem decryptStart : Obligations.DecryptStart := by
  intro s hb
  exact ⟨_, exec_decrypt_idle hb, rfl, rfl, rfl,
    fun _ => State.loadBlock_w0_of_written (s := (s.setOpr 0b11#2).setRc 31#5),
    fun _ => State.loadBlock_w1_of_written (s := (s.setOpr 0b11#2).setRc 31#5),
    ⟨rfl, rfl⟩, fun _ _ => rfl, ⟨rfl, rfl⟩, rfl⟩

end Sys2Proof.Machine
end

section
/-! PROOFS. The laws of the commands (44_laws.md): DECRYPT and ENCRYPT_KS undo each other round by round, the two ways to
encrypt agree, the schedule gives the key back; then the first two laws at the machine. -/

namespace Sys2Proof.Machine

open Safety

/-! ### The two round trips -/

/-- The loop of ENCRYPT_KS runs back along the loop of DECRYPT: `n` rounds from the plaintext reach the pair that DECRYPT
had `n` inverse rounds before its end (R110). -/
theorem encSeq_dec (ct : Pair) (sch : Schedule) {n : Nat} (hn : n ≤ 32) :
    encSeq (dec ct sch) sch n = decSeq ct sch (32 - n) := by
  induction n with
  | zero => rfl
  | succ n ih =>
    have hround : 32 - n = 31 - n + 1 := by omega
    have hindex : 31 - (31 - n) = n := by omega
    have hleft : 32 - (n + 1) = 31 - n := by omega
    rw [encSeq, ih (by omega), hround, decSeq, hindex, fwdRound_invRound, hleft]

theorem encKs_dec (ct : Pair) (sch : Schedule) : encKs (dec ct sch) sch = ct := encSeq_dec ct sch le_rfl

/-- Settles O49: each of the two loops runs back along the other; a key's schedule is one of the schedules. -/
theorem decryptUndoesEncrypt : Obligations.DecryptUndoesEncrypt :=
  ⟨dec_encKs, encKs_dec, fun pt key => dec_encKs pt (ks key)⟩

theorem encKs_bijective (sch : Schedule) : Function.Bijective (fun pt => encKs pt sch) :=
  Function.bijective_iff_has_inverse.2 ⟨fun ct => dec ct sch, (dec_encKs · sch), (encKs_dec · sch)⟩

/-- Settles O52: the two round trips make `dec` the inverse on both sides, and `enc` is `encKs` under the key's
schedule. -/
theorem encryptionIsPermutation : Obligations.EncryptionIsPermutation := by
  refine ⟨fun sch => ⟨encKs_bijective sch, (dec_encKs · sch), (encKs_dec · sch)⟩, fun key => ?_⟩
  have henc : (fun pt => enc pt key) = fun pt => encKs pt (ks key) := funext (enc_eq_encKs · key)
  rw [henc]
  exact encKs_bijective (ks key)

/-! ### The key and its schedule -/

/-- Settles O50: the key pair of ENCRYPT's loop runs through the key sequence, whose second words are the schedule's. -/
theorem encryptAgreesWithSchedule : Obligations.EncryptAgreesWithSchedule :=
  ⟨fun pt key i => congrArg Prod.snd (encLoop_keys pt key i.toNat), enc_eq_encKs⟩

/-- SCH[0] is the key's second word (R85). -/
theorem ks_zero (key : Pair) : ks key 0#5 = key.2 := rfl

theorem xor64_zero (a : Word) : xor64 a 0 = a := BitVec.xor_zero

/-- SCH[1] is the second word of the key advanced once; the subkey of that advance is 0 (R83). -/
theorem ks_one (key : Pair) : ks key 1#5 = xor64 (add64 (ror64 key.1 8) key.2) (rol64 key.2 3) := by
  have hround : ks key 1#5 = xor64 (rol64 key.2 3) (xor64 (add64 (ror64 key.1 8) key.2) 0) := rfl
  rw [hround, xor64_zero]
  exact BitVec.xor_comm _ _

/-- What is left of SCH[1] when the rotated SCH[0] is taken out: the key's first word as the advance adds it (R114). -/
theorem fst_eq_of_ks (key : Pair) :
    key.1 = rol64 (sub64 (xor64 (ks key 1#5) (rol64 (ks key 0#5) 3)) (ks key 0#5)) 8 := by
  rw [ks_zero, ks_one, xor64_xor64, sub64_add64, rol64_ror64 key.1 (by decide) (by decide)]

theorem ks_injective : Function.Injective ks := by
  intro key key' h
  have hsnd : key.2 = key'.2 := congrFun h 0#5
  have hfst : key.1 = key'.1 := by rw [fst_eq_of_ks key, h, ← fst_eq_of_ks key']
  exact Prod.ext hfst hsnd

/-- Settles O51: the first two words of the schedule are read back to the key, so two keys with one schedule are equal. -/
theorem scheduleDeterminesKey : Obligations.ScheduleDeterminesKey :=
  ⟨fun key => ⟨(ks_zero key).symm, fst_eq_of_ks key⟩, ks_injective⟩

/-! ### The laws at the machine -/

theorem holdsBin_of_sameWords {s t : State} {pt : Pair} {but : List Loc} (h : HoldsBin s pt) (hw : sameWords s t but)
    (h0 : .bin 0 ∉ but) (h1 : .bin 1 ∉ but) : HoldsBin t pt :=
  ⟨(hw _ h0).trans h.1, (hw _ h1).trans h.2⟩

/-- Settles O53: each command leaves its function form's block in BOUT, and `dec` takes back `encKs`. -/
theorem machineRoundTrip : Obligations.MachineRoundTrip := by
  intro s pt sch hs hbin hsch
  obtain ⟨t, hrun, -, -, hdata⟩ := encryptKs_result hs hbin hsch
  refine ⟨t, encKs pt sch, hrun, hdata.bout rfl, fun s2 hs2 hbin2 hsch2 => ?_⟩
  obtain ⟨u, hrun2, -, -, hdata2⟩ := decrypt_result hs2 hbin2 hsch2
  have hbout : HoldsBout u (dec (encKs pt sch) sch) := hdata2.bout rfl
  rw [dec_encKs] at hbout
  exact ⟨u, hrun2, hbout⟩

/-- Settles O54: KEY_SCHEDULE leaves the key's schedule in SCH and BIN as it was, so ENCRYPT_KS finds its operands there
and leaves `encKs` under that schedule, which is `enc`. -/
theorem machineEquivalence : Obligations.MachineEquivalence := by
  intro s pt key hs hbin hkey
  obtain ⟨t, hrunT, -, -, hdataT⟩ := encrypt_result hs hbin hkey
  obtain ⟨u, hrunU, -, hidleU, hdataU⟩ := keySchedule_result hs hkey
  have hbinU := holdsBin_of_sameWords hbin hdataU.words (by decide) (by decide)
  obtain ⟨v, hrunV, -, -, hdataV⟩ := encryptKs_result hidleU hbinU hdataU.holdsSch
  have hboutT : HoldsBout t (enc pt key) := hdataT.bout rfl
  rw [enc_eq_encKs] at hboutT
  exact ⟨t, u, v, encKs pt (ks key), hrunT, hrunU, hrunV, hboutT, hdataV.bout rfl⟩

end Sys2Proof.Machine
end

section
/-! PROOFS. The statement on exceptions (60_exceptions.md): the sequencer and a CMD write answer a next state, and so
does every line of a host script. -/

namespace Sys2Proof.Machine

theorem coreStep_next (s : State) : ∃ t, coreStep s = .next t := by
  cases hb : s.busy with
  | false => exact ⟨s, coreStep_idle hb⟩
  | true =>
    rw [coreStep_busy hb]
    exact exec_next (decode s.opr) s

theorem hostCmd_next (op : BitVec 2) (s : State) : ∃ t, hostCmd op s = .next t := by
  cases hb : s.busy with
  | false =>
    rw [hostCmd_idle op hb]
    exact exec_next (decode op) s
  | true => exact ⟨s, hostCmd_busy op hb⟩

/-- R120: by the script's next line; only the sequencer and a CMD write reach a command. -/
theorem step_next (s : State) : ∃ t, step s = .next t := by
  match hs : s.script with
  | [] =>
    rw [step_of_no_line hs]
    exact coreStep_next s
  | .pass :: r =>
    rw [step_of_pass hs]
    exact coreStep_next (s.setScript r)
  | .wait :: r =>
    cases hb : s.busy with
    | true =>
      rw [step_of_wait_busy hb hs]
      exact coreStep_next s
    | false => exact ⟨_, step_of_wait_idle hb hs⟩
  | .cmd op :: r =>
    rw [step_of_cmd hs]
    exact hostCmd_next op (s.setScript r)
  | .status :: r => exact ⟨_, step_of_status hs⟩
  | .wr l v :: r => exact ⟨_, step_of_wr hs⟩
  | .rd l :: r => exact ⟨_, step_of_rd hs⟩
  | .reset :: r => exact ⟨_, step_of_reset hs⟩

/-- Settles O23: a transition answers a next state under every script line, and a command in every state. -/
theorem everyStateSteps : Obligations.EveryStateSteps :=
  ⟨step_next, exec_next⟩

end Sys2Proof.Machine
end

section
/-! PROOFS. The statements on RESET and the hazards (70_reset_and_hazards.md): a command on any contents ends and writes
its outputs; a host that keeps its duties leaves nothing open; a RESET, a disturbing write and the end of a disturbed
command; BUSY falls from every busy state. -/

namespace Sys2Proof.Machine

open Safety

/-! ### A command on any contents -/

/-- Step number `k` of a block command changes registers and free values only, with the write-back due (R92, R103). -/
theorem AfterSteps.stepAction_block {i : Instr} {k : Nat} {t : State} (ht : AfterSteps i k t) (hk : k < 32)
    (hi : i ≠ .keySchedule) : ∃ u : State, stepAction i t = writeBackAt k u ∧ u.mem = t.mem := by
  have hlast := t.atLast_iff
  rw [ht.atLast hk, ht.opr, decide_eq_true_iff] at hlast
  by_cases h : k = 31
  · have hrc := hlast.1 h
    simp only [writeBackAt, if_pos h]
    cases i with
    | keySchedule => exact absurd rfl hi
    | encrypt => exact ⟨_, encryptStep_last hrc, rfl⟩
    | encryptKs => exact ⟨_, encryptKsStep_last hrc, rfl⟩
    | decrypt => exact ⟨_, decryptStep_last hrc, rfl⟩
  · have hrc := mt hlast.2 h
    simp only [writeBackAt, if_neg h]
    cases i with
    | keySchedule => exact absurd rfl hi
    | encrypt => exact ⟨_, encryptStep_mid hrc, rfl⟩
    | encryptKs => exact ⟨_, encryptKsStep_mid hrc, rfl⟩
    | decrypt => exact ⟨_, decryptStep_mid hrc, rfl⟩

/-- The words a command writes in its step number `k`: SCH[k] for KEY_SCHEDULE, BOUT in the last step of the others
(R43, R92). -/
def stepWrites (i : Instr) (k : Nat) : List Loc :=
  if i = .keySchedule then [.sch (BitVec.ofNat 5 k)] else if k = 31 then [.bout 0, .bout 1] else []

/-- The designated outputs are what the 32 steps write (R27). -/
theorem mem_outputs_iff {i : Instr} {l : Loc} : l ∈ outputs i ↔ ∃ k < 32, l ∈ stepWrites i k := by
  have hblock : l ∈ [Loc.bout 0, .bout 1] ↔ ∃ k < 32, l ∈ if k = 31 then [Loc.bout 0, .bout 1] else [] :=
    ⟨fun h => ⟨31, by decide, h⟩, fun ⟨k, _, h⟩ => by split at h <;> simp_all⟩
  cases i with
  | keySchedule => simp [outputs, schedule, stepWrites, eq_comm]
  | encrypt => exact hblock
  | encryptKs => exact hblock
  | decrypt => exact hblock

/-- Step number `k` writes the words of `stepWrites` and no other, whatever the buffers hold. -/
theorem AfterSteps.stepAction_words {i : Instr} {k : Nat} {t : State} (ht : AfterSteps i k t) (hk : k < 32) :
    (∀ l ∈ stepWrites i k, written (stepAction i t) l = true) ∧
      sameWords t (stepAction i t) (stepWrites i k) := by
  by_cases hi : i = .keySchedule
  · subst hi
    obtain ⟨hword, -, -⟩ := keyScheduleStep_frame t
    rw [ht.rc_forward (by decide) hk] at hword
    rw [stepWrites, if_pos rfl, stepAction]
    refine ⟨fun l hl => ?_, fun l hl => ?_⟩
    · rw [written, hword, if_pos (List.mem_singleton.1 hl)]; rfl
    · rw [hword, if_neg (mt List.mem_singleton.2 hl)]
  · obtain ⟨u, e, hmem⟩ := ht.stepAction_block hk hi
    have hword : ∀ l, u.word l = t.word l := fun l => congrArg (·.find l.addr) hmem
    rw [stepWrites, if_neg hi, e, writeBackAt]
    by_cases h : k = 31
    · obtain ⟨h0, h1⟩ := u.holdsBout_writeBack
      rw [if_pos h, if_pos h]
      exact ⟨by simp [written, h0, h1], fun l hl => (u.sameWords_writeBack l hl).trans (hword l)⟩
    · rw [if_neg h, if_neg h]
      exact ⟨by simp, fun l _ => hword l⟩

theorem stepAction_seen (i : Instr) (s : State) : (stepAction i s).seen = s.seen := by
  cases i with
  | keySchedule => simp only [stepAction, keyScheduleStep]; split <;> rfl
  | encrypt => simp only [stepAction, encryptStep]; split <;> rfl
  | encryptKs => simp only [stepAction, encryptKsStep]; split <;> rfl
  | decrypt => simp only [stepAction, decryptStep]; split <;> rfl

/-- What command `i` has done after `k` steps from the idle state `s`, whatever `s` holds: the words of those steps are
written, no word but its outputs has changed, the host has seen nothing more. -/
structure OutputData (s : State) (i : Instr) (k : Nat) (t : State) : Prop where
  stored : ∀ j < k, ∀ l ∈ stepWrites i j, written t l = true
  words : sameWords s t (outputs i)
  seen : t.seen = s.seen

theorem OutputData.start {s t : State} {i : Instr} (hb : s.busy = false) (h : exec i s = .next t) :
    OutputData s i 0 t := by
  obtain ⟨t', hexec, -, -, -, hmem, -, hseen, -⟩ := exec_idle_frame i hb
  obtain rfl : t' = t := Host.Outcome.next.inj (hexec.symm.trans h)
  exact ⟨by simp, fun l _ => congrArg (·.find l.addr) hmem, hseen⟩

theorem OutputData.succ {s t : State} {i : Instr} {k : Nat} (h : OutputData s i k t) (hk : k < 32)
    (ht : AfterSteps i k t) : OutputData s i (k + 1) (stepAction i t) := by
  obtain ⟨hstored, hwords⟩ := ht.stepAction_words hk
  refine ⟨fun j hj l hl => ?_, fun l hl => ?_, (stepAction_seen i t).trans h.seen⟩
  · by_cases hnow : l ∈ stepWrites i k
    · exact hstored l hnow
    · have hjk : j ≠ k := fun e => hnow (e ▸ hl)
      rw [written, hwords l hnow]
      exact h.stored j (by omega) l hl
  · rw [hwords l fun hnow => hl (mem_outputs_iff.2 ⟨k, hk, hnow⟩), h.words l hl]

/-- Settles O44: by induction over the 32 steps, each of which writes its words whatever it reads. -/
theorem everyCommandEndsOnAnyContents : Obligations.EveryCommandEndsOnAnyContents := by
  intro s i hs
  obtain ⟨t, hrun, hafter, hidle, hdata⟩ := runCommand_induction hs (OutputData s i)
    (fun _ _ _ _ h => ⟨h.stored, h.words, h.seen⟩) (fun _ => OutputData.start hs.1)
    (fun _ hk _ ht h => h.succ hk ht)
  refine ⟨t, hrun, hidle, hdata.words, fun l hl => ?_, hafter.opr, hdata.seen⟩
  obtain ⟨k, hk, hlk⟩ := mem_outputs_iff.1 hl
  exact hdata.stored k hk l hlk

/-! ### A host that keeps its duties -/

/-- The words a running command still reads: SCH for ENCRYPT_KS and DECRYPT (R43). -/
def stepReads : Instr → List Loc
  | .keySchedule => []
  | .encrypt => []
  | .encryptKs => schedule
  | .decrypt => schedule

theorem runningOk_iff (s : State) : runningOk s = true ↔
    s.disturbed = [] ∧ (s.busy = true → ∀ l ∈ stepReads (decode s.opr), written s l = true) := by
  rw [runningOk, Bool.and_eq_true, List.isEmpty_iff]
  refine and_congr_right fun _ => ?_
  cases s.busy <;> cases decode s.opr <;> simp [stepReads]

theorem stepReads_subset_reads (i : Instr) : stepReads i ⊆ reads i := by
  cases i with
  | keySchedule => exact List.nil_subset _
  | encrypt => exact List.nil_subset _
  | encryptKs => exact List.subset_append_right _ _
  | decrypt => exact List.subset_append_right _ _

/-- No step writes a word that the command still reads (R43). -/
theorem not_mem_of_mem_stepReads {i : Instr} {l : Loc} (h : l ∈ stepReads i) (r : BitVec 5) :
    l ∉ if i = .keySchedule then [Loc.sch r] else [.bout 0, .bout 1] := by
  have hblock : l ∈ schedule → l ∉ [Loc.bout 0, .bout 1] := by
    intro hl
    obtain ⟨j, -, rfl⟩ := List.mem_map.1 hl
    simp
  cases i with
  | keySchedule => exact absurd h List.not_mem_nil
  | encrypt => exact absurd h List.not_mem_nil
  | encryptKs => exact hblock h
  | decrypt => exact hblock h

theorem State.afterRead_draws_of_written {s : State} {l : Loc} (h : written s l = true) :
    (s.afterRead l).draws = s.draws := if_pos h

/-- A step action takes a free value only where it reads a word of SCH that is not written (R139). -/
theorem stepAction_draws {i : Instr} {s : State} (h : ∀ l ∈ stepReads i, written s l = true) :
    (stepAction i s).draws = s.draws := by
  cases i with
  | keySchedule =>
    obtain ⟨-, -, hdraws⟩ := keyScheduleStep_frame s
    exact hdraws
  | encrypt => simp only [stepAction, encryptStep]; split <;> rfl
  | encryptKs =>
    have hread := State.afterRead_draws_of_written (h _ (mem_schedule s.rc))
    simp only [stepAction, encryptKsStep]; split <;> exact hread
  | decrypt =>
    have hread := State.afterRead_draws_of_written (h _ (mem_schedule s.rc))
    simp only [stepAction, decryptStep]; split <;> exact hread

/-- A step of an undisturbed command with its schedule written takes no free value, and leaves both so. -/
theorem exec_busy_determinate {s t : State} (hb : s.busy = true) (hok : runningOk s = true)
    (h : exec (decode s.opr) s = .next t) : t.draws = s.draws ∧ runningOk t = true := by
  obtain ⟨hd, hread⟩ := (runningOk_iff s).1 hok
  have hread := hread hb
  constructor
  · obtain rfl := Host.Outcome.next.inj ((exec_busy _ hb).symm.trans h)
    obtain ⟨r, b, e⟩ := State.advance_undisturbed ((stepAction_disturbed (decode s.opr) s).trans hd)
    rw [e]
    exact stepAction_draws hread
  · obtain ⟨u, hexec, hopr, -, -, -, -, hdist, -, hframe⟩ := exec_busy_frame (decode s.opr) hb
    obtain rfl := Host.Outcome.next.inj (hexec.symm.trans h)
    obtain ⟨r, b, e⟩ := State.advance_undisturbed (hdist.trans hd)
    rw [e, runningOk_iff]
    refine ⟨hdist.trans hd, fun _ l hl => ?_⟩
    have hl : l ∈ stepReads (decode s.opr) := hopr ▸ hl
    exact (congrArg Option.isSome (hframe l (not_mem_of_mem_stepReads hl s.rc))).trans (hread l hl)

theorem State.loadKey_draws_of_written {s : State} (h0 : written s (.key 0) = true) (h1 : written s (.key 1) = true) :
    s.loadKey.draws = s.draws :=
  (State.afterRead_draws_of_written (s := s.afterRead (.key 0)) h1).trans (State.afterRead_draws_of_written h0)

theorem State.loadBlock_draws_of_written {s : State} (h0 : written s (.bin 0) = true)
    (h1 : written s (.bin 1) = true) : s.loadBlock.draws = s.draws :=
  (State.afterRead_draws_of_written (s := s.afterRead (.bin 0)) h1).trans (State.afterRead_draws_of_written h0)

/-- A START on written operands takes no free value (R139). -/
theorem exec_idle_draws {i : Instr} {s t : State} (hb : s.busy = false) (hreads : ∀ l ∈ reads i, written s l = true)
    (h : exec i s = .next t) : t.draws = s.draws := by
  cases i with
  | keySchedule =>
    obtain rfl := Host.Outcome.next.inj ((exec_keySchedule_idle hb).symm.trans h)
    exact State.loadKey_draws_of_written (s := (s.setOpr 0b00#2).setRc 0#5)
      (hreads _ (by simp [reads])) (hreads _ (by simp [reads]))
  | encrypt =>
    obtain rfl := Host.Outcome.next.inj ((exec_encrypt_idle hb).symm.trans h)
    have hkey := State.loadKey_draws_of_written (s := ((s.setOpr 0b01#2).setRc 0#5).loadBlock)
      (hreads _ (by simp [reads])) (hreads _ (by simp [reads]))
    exact hkey.trans (State.loadBlock_draws_of_written (s := (s.setOpr 0b01#2).setRc 0#5)
      (hreads _ (by simp [reads])) (hreads _ (by simp [reads])))
  | encryptKs =>
    obtain rfl := Host.Outcome.next.inj ((exec_encryptKs_idle hb).symm.trans h)
    exact State.loadBlock_draws_of_written (s := (s.setOpr 0b10#2).setRc 0#5)
      (hreads _ (by simp [reads])) (hreads _ (by simp [reads]))
  | decrypt =>
    obtain rfl := Host.Outcome.next.inj ((exec_decrypt_idle hb).symm.trans h)
    exact State.loadBlock_draws_of_written (s := (s.setOpr 0b11#2).setRc 31#5)
      (hreads _ (by simp [reads])) (hreads _ (by simp [reads]))

/-- A START on written operands takes no free value and begins a command with its schedule written. -/
theorem exec_idle_determinate {i : Instr} {s t : State} (hb : s.busy = false) (hd : s.disturbed = [])
    (hreads : ∀ l ∈ reads i, written s l = true) (h : exec i s = .next t) :
    t.draws = s.draws ∧ runningOk t = true := by
  refine ⟨exec_idle_draws hb hreads h, (runningOk_iff t).2 ?_⟩
  obtain ⟨t', hexec, -, hopr, -, hmem, -, -, hdist⟩ := exec_idle_frame i hb
  obtain rfl := Host.Outcome.next.inj (hexec.symm.trans h)
  refine ⟨hdist.trans hd, fun _ l hl => ?_⟩
  rw [hopr, decode_encode] at hl
  rw [written, State.word, hmem]
  exact hreads l (stepReads_subset_reads i hl)

theorem coreStep_determinate {s t : State} (hok : runningOk s = true) (h : coreStep s = .next t) :
    t.draws = s.draws ∧ runningOk t = true := by
  cases hb : s.busy with
  | false =>
    obtain rfl := Host.Outcome.next.inj ((coreStep_idle hb).symm.trans h)
    exact ⟨rfl, hok⟩
  | true => exact exec_busy_determinate hb hok ((coreStep_busy hb).symm.trans h)

/-- While BUSY = 0 a known value is written without taking a free value (R44, R65). -/
theorem step_wr_known {s : State} {l : Loc} {v : HostVal} {r : List ScriptLine} (hb : s.busy = false)
    (hs : s.script = .wr l v :: r) (hknown : lineKnown s (.wr l v) = true) :
    ∃ x, step s = .next ((s.setScript r).memWrite l x) := by
  cases v with
  | lit x => exact ⟨x, step_wr_lit hb hs⟩
  | readOf l' =>
    obtain ⟨x, hx⟩ := Option.isSome_iff_exists.1 hknown
    exact ⟨x, step_wr_readOf hb hs hx⟩

theorem lineOk_of_hostOk {s : State} {x : ScriptLine} {r : List ScriptLine} (h : hostOk s = true)
    (hs : s.script = x :: r) : lineOk s x = true := by
  simpa only [hostOk, hs] using h

theorem lineKnown_of_hostKnown {s : State} {x : ScriptLine} {r : List ScriptLine} (h : hostKnown s = true)
    (hs : s.script = x :: r) : lineKnown s x = true := by
  simpa only [hostKnown, hs] using h

/-- While no command runs, only what is left open counts. -/
theorem runningOk_of_idle {s : State} (hb : s.busy = false) (hd : s.disturbed = []) : runningOk s = true :=
  (runningOk_iff s).2 ⟨hd, by simp [hb]⟩

/-- Settles O59: by the script's next line; the duties keep the host from a running command, and START and step read
written words only. -/
theorem disciplinedStepIsDeterminate : Obligations.DisciplinedStepIsDeterminate := by
  intro s t hhost hknown hok hstep
  have hline : ∀ r, runningOk (s.setScript r) = true := fun _ => hok
  obtain ⟨hd, -⟩ := (runningOk_iff s).1 hok
  match hs : s.script with
  | [] => exact coreStep_determinate hok ((step_of_no_line hs).symm.trans hstep)
  | .pass :: r => exact coreStep_determinate (s := s.setScript r) (hline r) ((step_of_pass hs).symm.trans hstep)
  | .wait :: r =>
    cases hb : s.busy with
    | true => exact coreStep_determinate hok ((step_of_wait_busy hb hs).symm.trans hstep)
    | false =>
      obtain rfl := Host.Outcome.next.inj ((step_of_wait_idle hb hs).symm.trans hstep)
      exact ⟨rfl, hline r⟩
  | .cmd op :: r =>
    have hduty := lineOk_of_hostOk hhost hs
    simp only [lineOk, Bool.and_eq_true, Bool.not_eq_true', List.all_eq_true] at hduty
    obtain ⟨hb, hreads⟩ := hduty
    rw [step_of_cmd hs, hostCmd_idle op (by simpa using hb)] at hstep
    exact exec_idle_determinate (s := s.setScript r) hb hd hreads hstep
  | .status :: r =>
    obtain rfl := Host.Outcome.next.inj ((step_of_status hs).symm.trans hstep)
    exact ⟨rfl, hline r⟩
  | .wr l v :: r =>
    have hb : s.busy = false := by simpa [lineOk] using lineOk_of_hostOk hhost hs
    obtain ⟨x, hwrite⟩ := step_wr_known hb hs (lineKnown_of_hostKnown hknown hs)
    obtain rfl := Host.Outcome.next.inj (hwrite.symm.trans hstep)
    exact ⟨rfl, runningOk_of_idle hb hd⟩
  | .rd l :: r =>
    have hb : s.busy = false := by simpa [lineOk] using lineOk_of_hostOk hhost hs
    obtain ⟨v, hv⟩ := Option.isSome_iff_exists.1 (lineKnown_of_hostKnown hknown hs)
    obtain rfl := Host.Outcome.next.inj ((hostReadReturnsWord.1 s l v r hb hs hv).symm.trans hstep)
    exact ⟨rfl, hline r⟩
  | .reset :: r => exact absurd (lineKnown_of_hostKnown hknown hs) (by simp [lineKnown])

/-! ### RESET -/

theorem runFor_of_idle {s : State} (hb : s.busy = false) (hs : s.script = []) (n : Nat) : runFor n s = .next s := by
  induction n with
  | zero => exact runFor_zero s
  | succ n ih => exact runFor_snoc n ih (idleCoreChangesNothing.1 s hb hs)

/-- Settles O17: what RESET leaves is read off its definition, and an idle core with no host move due stays as it is. -/
theorem resetEndsCommand : Obligations.ResetEndsCommand := by
  intro s r hs
  exact ⟨hostReset (s.setScript r), step_of_reset hs, rfl, rfl, fun _ => rfl, rfl, rfl, rfl,
    fun hr => runFor_of_idle rfl hr⟩

/-! ### A host write to an output while BUSY = 1 -/

/-- Settles O35: the write lands as `disturb`, which puts a free value in the word and opens what is still to be
written. -/
theorem hostWriteOfOutputWhileBusy : Obligations.HostWriteOfOutputWhileBusy := by
  intro s l v r hb hl hs
  obtain ⟨x, n, hwrite, -⟩ := hostWrite_eq_hostPut l v (s.setScript r)
  rw [State.hostPut_output_busy x (by simpa using hb) hl] at hwrite
  have hword := ((s.setScript r).setDraws n).word_drawInto l
  refine ⟨((s.setScript r).setDraws n).disturb l, by rw [step_of_wr hs, hwrite], fun l' hl' => ?_, ?_,
    fun l' => ?_, rfl⟩
  · exact (hword l').trans (if_neg (by simpa using hl'))
  · exact congrArg Option.isSome ((hword l).trans (if_pos rfl))
  · exact (State.mem_disturb _ l l').trans or_left_comm

/-! ### The last step of a disturbed command -/

/-- A step action does not look at the words left open. -/
theorem stepAction_setDisturbed (i : Instr) (s : State) (ls : List Loc) :
    stepAction i (s.setDisturbed ls) = (stepAction i s).setDisturbed ls := by
  cases i with
  | keySchedule => rw [stepAction, keyScheduleStep, keyScheduleStep, apply_ite (State.setDisturbed · ls)]; rfl
  | encrypt => rw [stepAction, encryptStep, encryptStep, apply_ite (State.setDisturbed · ls)]; rfl
  | encryptKs => rw [stepAction, encryptKsStep, encryptKsStep, apply_ite (State.setDisturbed · ls)]; rfl
  | decrypt => rw [stepAction, decryptStep, decryptStep, apply_ite (State.setDisturbed · ls)]; rfl

/-- Words written to stay written, and the listed ones become so. -/
theorem State.written_drawAll {ls : List Loc} {s : State} {l : Loc} (h : l ∈ ls ∨ written s l = true) :
    written (s.drawAll ls) l = true := by
  induction ls generalizing s with
  | nil => exact h.resolve_left List.not_mem_nil
  | cons a ls ih =>
    refine ih (s := s.drawInto a) ?_
    rw [written, State.word_drawInto]
    by_cases hla : l = a
    · rw [if_pos hla]; exact .inr rfl
    · rw [if_neg hla]; exact h.imp_left fun hl => (List.mem_cons.1 hl).resolve_left hla

/-- At the end of the command every word left open holds some Word (U4). -/
theorem State.written_settle {s : State} {l : Loc} (h : l ∈ s.disturbed) : written s.settle l = true := by
  cases hd : s.disturbed with
  | nil => simp [hd] at h
  | cons a ls =>
    have hword : s.settle.word l = (s.drawAll (a :: ls)).word l := by
      simp only [State.settle, hd]; rfl
    rw [written, hword]
    exact State.written_drawAll (.inl (hd ▸ h))

/-- Settles O36: the two last steps are one step action, ended once by `settle` and once with nothing left open. -/
theorem disturbedCommandEnds : Obligations.DisturbedCommandEnds := by
  intro s i hb hopr hrc _
  obtain ⟨ho, hr, -⟩ := stepAction_sequencer i s
  have hdist := stepAction_disturbed i s
  have hlast : s.atLast = true := by
    rw [State.atLast_iff, hopr, hrc]
    cases i <;> rfl
  have hend : exec i s = .next ((stepAction i s).settle.setBusy false) := by
    rw [exec_busy i hb, State.advance_last ((State.atLast_congr ho hr).trans hlast)]
  have hend0 : exec i (s.setDisturbed []) = .next (((stepAction i s).setDisturbed []).setBusy false) := by
    rw [exec_busy i (by simpa using hb), stepAction_setDisturbed,
      State.advance_last (s := (stepAction i s).setDisturbed []) ((State.atLast_congr ho hr).trans hlast),
      State.settle_of_nil rfl]
  obtain ⟨m, n, v, e, -, hframe⟩ := (stepAction i s).settle_frame
  have hwritten : ∀ l ∈ s.disturbed, written ((stepAction i s).settle.setBusy false) l = true :=
    fun l hl => State.written_settle (hdist.symm ▸ hl)
  have hwords : sameWords (stepAction i s) (stepAction i s).settle s.disturbed :=
    fun l hl => hframe l (hdist.symm ▸ hl)
  refine ⟨_, _, hend, hend0, rfl, ?_, ?_, ?_, ?_, hwords, hwritten⟩
  · rw [e]; rfl
  · rw [e]; exact ⟨rfl, rfl⟩
  · rw [e]; exact ⟨rfl, rfl, rfl⟩
  · rw [e]; exact ⟨rfl, rfl⟩

/-! ### BUSY falls -/

/-- A busy state, reached or not, is that of its command after as many steps as RC stands for (R21). -/
theorem AfterSteps.of_busy {s : State} (hb : s.busy = true) (hs : s.script = []) :
    AfterSteps (decode s.opr) (if s.opr = 0b11#2 then 31 - s.rc.toNat else s.rc.toNat) s := by
  have hlt := s.rc.isLt
  have hdec : decode s.opr = .decrypt ↔ s.opr = 0b11#2 := decode_eq_iff s.opr .decrypt
  refine ⟨hs, (encode_decode s.opr).symm, ?_, ?_⟩
  · rw [hb, eq_comm, decide_eq_true_iff]
    split <;> omega
  · rw [indexAfter]
    simp only [hdec]
    split <;> omega

/-- Settles O42: the steps left are those the command has not taken yet, and BUSY falls with the last. -/
theorem busyAlwaysFalls : Obligations.BusyAlwaysFalls := by
  intro s hb hs
  have hlt := s.rc.isLt
  have hafter := AfterSteps.of_busy hb hs
  generalize hk : (if s.opr = 0b11#2 then 31 - s.rc.toNat else s.rc.toNat) = k at hafter
  have hn : (if s.opr = 0b11#2 then s.rc.toNat + 1 else 32 - s.rc.toNat) = 32 - k := by
    rw [← hk]; split <;> omega
  have hk32 : k < 32 := by rw [← hk]; split <;> omega
  have hrun := runFor_induction (n := 32 - k) (fun j => AfterSteps (decode s.opr) (k + j)) hafter fun j hj t ht => by
    obtain ⟨t', hexec⟩ := exec_next (decode s.opr) t
    exact ⟨t', (ht.step_eq (by omega)).trans hexec, ht.succ (by omega) hexec⟩
  rw [hn]
  refine ⟨fun j hj => ?_, ?_⟩
  · obtain ⟨t, hrun, ht⟩ := hrun j hj.le
    exact ⟨t, hrun, ht.busy_true (by omega)⟩
  · obtain ⟨t, hrun, ht⟩ := hrun (32 - k) le_rfl
    exact ⟨t, hrun, ht.busy.trans (by simp; omega)⟩

end Sys2Proof.Machine
end
